-- ==== Sys2Proof/Word.lean ====
section
/-! DEFINITION. The widths of 00_scope.md R7 and 30_encoding.md R70: the command word, the 16-bit values, the bytes
of the frame buffer, and the opaque channel handle. -/

namespace Sys2Proof

/-- A 32-bit command word, or one 32-bit configuration operand (30_encoding.md R70, R74). -/
abbrev Word := BitVec 32

/-- A 16-bit value: the throttle input, the frame `F`, the wire-order frame `W` (00_scope.md R7). -/
abbrev Half := BitVec 16

/-- One byte lane of the frame buffer `FB` (20_memory.md R51). -/
abbrev Byte := BitVec 8

/-- The opaque channel handle (41_orchestrator.md R142). Only its identity matters. DESIGN CHOICE, safe: log 18. -/
abbrev Chan := Nat

end Sys2Proof
end

