-- ==== Sys2Proof/Syntax.lean ====
section
/-! DEFINITION. The commands of the block: one constructor for each row of spec/opcode_table.json. -/

namespace Sys2Proof

/-- A decoded command word (30_encoding.md R71 to R75). The operands that do not stand in the word (`chan`, `RES`,
`BAUD`, `DELAY`) and the environment draws reach the meaning through the command port of the state. -/
inductive Instr where
  /-- ENCODE (R72): throttle and telemetry-request bit. -/
  | encode (thr : Half) (tlm : Bool)
  /-- RESET (R73). -/
  | reset
  /-- DESTROY (R73). -/
  | destroy
  /-- CONSTRUCT, configured form, `cfgp = 1` (R74). -/
  | construct (bidir : Bool)
  /-- CONSTRUCT, null form, `cfgp = 0` (R74). -/
  | constructNull
  /-- BUILD_FRAME (R75): throttle, telemetry-request bit, bidirectional-mode flag. -/
  | buildFrame (thr : Half) (tlm : Bool) (bidir : Bool)
  deriving DecidableEq, Repr

end Sys2Proof
end

