-- ==== Sys2Proof/WellFormed.lean ====
section
/-! DEFINITION. Well-formedness. The fields of a decoded command have the widths of 30_encoding.md R70 by their types,
and R76 checks no value, so every `Instr` is well formed. The assembly form of 30_encoding.md R80, R81 writes its operands as
numbers: there the ranges of R80 are checked. -/

namespace Sys2Proof

/-- Every value of every field is legal: "The command interface does not clamp or check `throttle[15:11]`" (R76), and a
1-bit field has two legal values. -/
def Instr.wellFormed : Instr → Bool
  | .encode _ _ => true
  | .reset => true
  | .destroy => true
  | .construct _ => true
  | .constructNull => true
  | .buildFrame _ _ _ => true

/-- One assembly line of 30_encoding.md R80, its operands still unchecked numbers. The pseudo-instructions of R81 are
expanded before a line takes this form. -/
structure AsmRange where
  /-- The operand as written. -/
  value : Nat
  /-- The least number above the operand's range. -/
  bound : Nat
  deriving DecidableEq, Repr

/-- An assembly command with its operands as numbers (R80). -/
inductive AsmLine where
  | encode (thr tlm : Nat)
  | reset
  | destroy
  | construct (res baud delay bidir : Nat)
  | constructNull
  | buildFrame (thr tlm bidir : Nat)
  deriving DecidableEq, Repr

/-- The operands of a line beside the ranges R80 gives them: "thr 0..65535, tlm 0|1", "res, baud, delay 0..2^32-1,
bidir 0|1". -/
def AsmLine.ranges : AsmLine → List AsmRange
  | .encode thr tlm => [⟨thr, 2 ^ 16⟩, ⟨tlm, 2⟩]
  | .reset => []
  | .destroy => []
  | .construct res baud delay bidir => [⟨res, 2 ^ 32⟩, ⟨baud, 2 ^ 32⟩, ⟨delay, 2 ^ 32⟩, ⟨bidir, 2⟩]
  | .constructNull => []
  | .buildFrame thr tlm bidir => [⟨thr, 2 ^ 16⟩, ⟨tlm, 2⟩, ⟨bidir, 2⟩]

/-- A line is well formed when every operand is in its range (R80). -/
def AsmLine.wellFormed (l : AsmLine) : Bool :=
  l.ranges.all fun r => decide (r.value < r.bound)

end Sys2Proof
end

