-- ==== Sys2Proof/Decode.lean ====
section
/-! DEFINITION. Decoding of command words (30_encoding.md R70 to R79), total on 32-bit words and rejecting by name; then the encoder of the same rules. -/

namespace Sys2Proof

/-- `CW[3:0]`, operation select (R70). -/
def opField (cw : BitVec 32) : BitVec 4 := cw.extractLsb' 0 4

/-- `CW[4]`, the telemetry-request bit (R70, R76). -/
def tlmField (cw : BitVec 32) : Bool := cw.getLsbD 4

/-- `CW[5]`, the bidirectional-mode flag (R70, R76). -/
def bidirField (cw : BitVec 32) : Bool := cw.getLsbD 5

/-- `CW[6]`, configuration present (R70, R76). -/
def cfgpField (cw : BitVec 32) : Bool := cw.getLsbD 6

/-- `CW[31:16]`, the throttle, "a 16-bit unsigned value, not extended" (R76). -/
def thrField (cw : BitVec 32) : BitVec 16 := cw.extractLsb' 16 16

/-- What decoding a word gives: one command, or the name of its rejection (R79). -/
inductive Decoded where
  | command (i : Instr)
  /-- The word is reserved (R77). -/
  | reservedEncoding
  deriving DecidableEq, Repr

/-- Decoding: "The first match in this order wins" (R79). -/
def decode (cw : BitVec 32) : Decoded :=
  if opField cw = 0x0#4 ∧ cw &&& 0x0000FFE0#32 = 0#32 then .command (.encode (thrField cw) (tlmField cw))
  else if cw = 0x00000001#32 then .command .reset
  else if cw = 0x00000002#32 then .command .destroy
  else if cw &&& 0xFFFFFFDF#32 = 0x00000043#32 then .command (.construct (bidirField cw))
  else if cw = 0x00000003#32 then .command .constructNull
  else if opField cw = 0x4#4 ∧ cw &&& 0x0000FFC0#32 = 0#32 then
    .command (.buildFrame (thrField cw) (tlmField cw) (bidirField cw))
  else .reservedEncoding

/-- The instruction of an opcode-table row whose bits are `w`. Every command word has 32 bits (R78): another length is no
command word. -/
def decodeTableWord (nbits w : Nat) : Option Instr :=
  if nbits ≤ 32 ∧ w < 2 ^ 32 then
    match decode (BitVec.ofNat 32 w) with
    | .command i => some i
    | .reservedEncoding => none
  else none

/-- One bit as a 1-bit field: "`true` is 1 and `false` is 0" (00_scope.md R10). -/
def bit (b : Bool) : BitVec 1 := BitVec.ofBool b

/-- The command word with the fields of R70 at their places; `CW[15:7]` is 0. -/
def commandWord (thr : BitVec 16) (cfgp bidir tlm : Bool) (op : BitVec 4) : BitVec 32 :=
  thr ++ 0b000000000#9 ++ bit cfgp ++ bit bidir ++ bit tlm ++ op

/-- The word of a command (R72 to R75): a field the command does not use is 0 (R70). -/
def encode : Instr → Word
  | .encode thr tlm => commandWord thr false false tlm 0x0#4
  | .reset => commandWord 0 false false false 0x1#4
  | .destroy => commandWord 0 false false false 0x2#4
  | .construct bidir => commandWord 0 true bidir false 0x3#4
  | .constructNull => commandWord 0 false false false 0x3#4
  | .buildFrame thr tlm bidir => commandWord thr false bidir tlm 0x4#4

end Sys2Proof
end

