-- ==== Sys2Proof/Config.lean ====
section
/-! DEFINITION. What one implementation fixes: the parameters of 00_scope.md R7. The state carries one record of them
(log 3), so a statement over all states is a statement over all parameters. The spec leaves no result of a command that
goes on unstated, so there is no free value. -/

namespace Sys2Proof

/-- `NEITHER_POLICY` (41_orchestrator.md R134): what ENCODE does when the frame-phase delegate reports neither flag. -/
inductive NeitherPolicy where
  | stop
  | fallThrough
  deriving DecidableEq, Repr

/-- The parameters of 00_scope.md R7 that an implementation may choose. -/
structure Params where
  /-- `DUR_BITS`: the width of one duration field of a symbol. -/
  durBits : Nat
  /-- `EXACT_FILL_FULL`: whether a reference sub-encoder reports BufferFull on an exact fill (43_subencoders.md R204). -/
  exactFillFull : Bool
  /-- `NEITHER_POLICY`. -/
  neitherPolicy : NeitherPolicy
  /-- `SYMBOL_BYTES`: the size argument of the gap delegate (20_memory.md R66); nothing observable depends on it. -/
  symbolBytes : Nat
  deriving DecidableEq, Repr

/-- The defaults of 00_scope.md R7. -/
def Params.defaults : Params :=
  { durBits := 15, exactFillFull := true, neitherPolicy := .stop, symbolBytes := 4 }

end Sys2Proof
end

