-- ==== Sys2Proof/Machine/State.lean ====
section
/-! DEFINITION. The state of the block: every register of 10_state.md, the output buffers of 20_memory.md R50, and the host's commands with their environment draws. Plain data.

A register that the spec lets "hold *no value*" (00_scope.md R10, 10_state.md R40) is an `Option`: `none` is that value of the
spec, which power-on gives and DESTROY writes (log 2). -/

namespace Sys2Proof.Machine

/-- `INST` (10_state.md R21). -/
inductive Inst where
  | absent
  | live
  | destroyed
  deriving DecidableEq, Repr

/-- `PHASE` (10_state.md R30). -/
inductive Phase where
  | awaitingFrame
  | awaitingGap
  deriving DecidableEq, Repr

/-- `BIT_ORDER` is hardwired (10_state.md R29): its type has the one value. -/
inductive BitOrder where
  | msbFirst
  deriving DecidableEq, Repr

/-- A symbol (00_scope.md R13); element 0 is emitted first. A level is one bit, `true` the high one. Durations are tick counts:
naturals that the admission check (42_construction_timing.md R178) bounds by `DUR_MAX`. DESIGN CHOICE, safe: log 10. -/
structure Symbol where
  level0 : Bool
  dur0 : Nat
  level1 : Bool
  dur1 : Nat
  deriving DecidableEq, Repr

/-- A subset of `{Complete, BufferFull}` (00_scope.md R14). -/
structure FlagSet where
  complete : Bool
  bufferFull : Bool
  deriving DecidableEq, Repr

/-- The two sub-encoders (43_subencoders.md R200). -/
inductive Delegate where
  | sse
  | gap
  deriving DecidableEq, Repr

/-- What a delegate call does (43_subencoders.md R200): the count and the flag set it returns and the symbols it
appends. `stray`: it also does something else, which R201 obligation 2 and 92_eei_decisions.md D39 forbid. -/
structure Answer where
  n : Nat
  flags : FlagSet
  symbols : List Symbol
  stray : Bool
  deriving DecidableEq, Repr

/-- The registers whose reading can find no value (60_exceptions.md R234, `UnwrittenRead` records the register name). -/
inductive Reg where
  | cfgBidir
  | phase
  | frameReg
  | ssePos
  | gapPos
  | bit1Sym
  | bit0Sym
  | gapSym
  deriving DecidableEq, Repr

/-- The fault reasons of 60_exceptions.md R234, each with what it records. A meaning that faults adds one to `FAULT` and answers
that next state; the outcome `.fault` is raised by `step` alone, on a state that holds one (R236, log 4). -/
inductive Fault where
  /-- ENCODE, RESET or DESTROY while `INST ≠ Live`. Safe: the run stops where an implementation is undefined. -/
  | noInstance (cw : Word)
  /-- CONSTRUCT while `INST = Live`. Safe: the run stops. -/
  | alreadyLive (cw : Word)
  /-- A delegate broke 43_subencoders.md R201 in ENCODE, RESET or DESTROY. Safe: the run stops. -/
  | collaboratorContractViolation (cw : Word) (d : Delegate) (n : Nat) (s : FlagSet)
  /-- A rule read a register that holds no value: the spec states this stop, "A rule that reads such a register faults" (00_scope.md R10;
  10_state.md R40; 60_exceptions.md R234; 93_implementation_defined.md I16). Raised by ENCODE. Safe: the run stops; no state of the
  invariant reaches it. -/
  | unwrittenRead (reg : Reg)
  deriving DecidableEq, Repr

/-- The refusal reasons of 60_exceptions.md R235. A meaning that refuses sets `REFUSED` and answers that next state (log 5);
no step answers the outcome `.refused`. -/
inductive Refusal where
  /-- No meaning in this model yet: raised by an arm of `exec`, and by none now. Safe: the run stops. -/
  | notModelled (mnemonic : String)
  /-- `step`, on a reserved word (30_encoding.md R77). Safe: nothing but the mark changes, and R236 takes it as a premise. -/
  | reservedEncoding
  /-- CONSTRUCT, on a configuration that is not accepted (42_construction_timing.md R171, R178). Safe, as before. -/
  | configNotAdmitted
  /-- ENCODE, on an output buffer that another block was given too (20_memory.md R65). Safe, as before. -/
  | sharedOutputBuffer
  deriving DecidableEq, Repr

/-- A command as the host issues it: the word, its operands (30_encoding.md R70 to R75) and the environment inputs drawn for it
(10_state.md R41). DESIGN CHOICE, safe: log 1. -/
structure Command where
  /-- `CW`. -/
  cw : Word
  /-- `RES`. -/
  res : Word
  /-- `BAUD`. -/
  baud : Word
  /-- `DELAY`. -/
  delay : Word
  /-- `chan`. -/
  chan : Chan
  /-- The free space at the start of the command (20_memory.md R56). -/
  free : Nat
  /-- The outcome of allocating the orchestrator's storage; `true` is `ok` (42_construction_timing.md R179). -/
  a1 : Bool
  /-- The outcome of allocating the SSE. -/
  a2 : Bool
  /-- The outcome of allocating the GAP. -/
  a3 : Bool
  /-- The host has given the output buffer to another block too (20_memory.md R65). -/
  shared : Bool
  /-- How a collaborator other than the reference SSE answers this command's call; `none`: the reference SSE (log 11). -/
  sse : Option Answer
  /-- The same for the GAP. -/
  gap : Option Answer
  deriving DecidableEq, Repr

/-- A command whose operands are zero, with every allocation ok, no shared buffer and the reference collaborators. DESIGN CHOICE,
safe: log 1. -/
def Command.blank : Command :=
  { cw := 0, res := 0, baud := 0, delay := 0, chan := 0, free := 0, a1 := true, a2 := true, a3 := true, shared := false,
    sse := none, gap := none }

/-- `CFG_RES`, `CFG_BAUD`, `CFG_DELAY`, `CFG_BIDIR` (10_state.md R22 to R25). -/
structure CfgRegs where
  res : Option Word
  baud : Option Word
  delay : Option Word
  bidir : Option Bool
  deriving DecidableEq, Repr

/-- `T_PERIOD`, `T1H`, `T1L`, `T0H`, `T0L`, `GAP_TICKS`, `GAP_HALF` (10_state.md R26, R27). -/
structure TimingRegs where
  period : Option Nat
  t1h : Option Nat
  t1l : Option Nat
  t0h : Option Nat
  t0l : Option Nat
  gapTicks : Option Nat
  gapHalf : Option Nat
  deriving DecidableEq, Repr

/-- `BIT1_SYM`, `BIT0_SYM`, `GAP_SYM` (10_state.md R28). -/
structure SymbolRegs where
  bit1 : Option Symbol
  bit0 : Option Symbol
  gap : Option Symbol
  deriving DecidableEq, Repr

/-- `RES_CODE`, `RES_COUNT`, `RES_FLAGS`, `RES_FRAME` (10_state.md R35). -/
structure ResultRegs where
  code : Option (BitVec 2)
  count : Option Word
  flags : Option (BitVec 2)
  frame : Option Half
  deriving DecidableEq, Repr

/-- Which of `RES_COUNT`, `RES_FLAGS`, `RES_FRAME` a returning command wrote; it always writes `RES_CODE`. -/
structure ResultMask where
  count : Bool
  flags : Bool
  frame : Bool
  deriving DecidableEq, Repr

/-- How the last command ended (00_scope.md R12, 60_exceptions.md R240). The model's own record: log 6. -/
inductive Ended where
  | noCommand
  | returned (wrote : ResultMask)
  | refused (r : Refusal)
  | faulted (f : Fault)
  deriving DecidableEq, Repr

/-- The output buffers: for each channel with a nonempty buffer, the symbols appended to it, oldest first (20_memory.md R50,
R55), the channels strictly rising. An unlisted channel's buffer is empty. DESIGN CHOICE, safe: log 8. -/
abbrev Memory := List (Chan × List Symbol)

/-- The state of one block. -/
structure State where
  /-- The parameters of 00_scope.md R7; no command writes them (log 3). -/
  par : Params
  /-- `INST` (10_state.md R21). -/
  inst : Inst
  /-- The configuration registers (10_state.md R22 to R25). -/
  cfg : CfgRegs
  /-- The derived timing registers (10_state.md R26, R27). -/
  tim : TimingRegs
  /-- The symbol registers (10_state.md R28). -/
  sym : SymbolRegs
  /-- `BIT_ORDER` (10_state.md R29). -/
  bitOrder : BitOrder
  /-- `PHASE` (10_state.md R30). -/
  phase : Option Phase
  /-- `FRAME_REG`, and with it `FB` (10_state.md R31, 20_memory.md R51). -/
  frameReg : Option Half
  /-- `SSE_LIVE` (10_state.md R32). -/
  sseLive : Bool
  /-- `SSE_POS` (10_state.md R33). -/
  ssePos : Option (Fin 16)
  /-- `GAP_LIVE` (10_state.md R32). -/
  gapLive : Bool
  /-- `GAP_POS` (10_state.md R34). -/
  gapPos : Option (Fin 1)
  /-- The result registers (10_state.md R35). -/
  res : ResultRegs
  /-- `FAULT` (10_state.md R39). -/
  fault : List Fault
  /-- `REFUSED` (10_state.md R39). -/
  refused : Bool
  /-- How the last command ended: the model's own field (log 6). -/
  ended : Ended
  /-- The output buffers (20_memory.md R50, R55). -/
  out : Memory
  /-- `free(chan)`: the space this command's output buffer still has (20_memory.md R55, R56; log 9). -/
  free : Nat
  /-- The command being executed (log 1). -/
  cmd : Command
  /-- The commands issued and not yet taken, oldest first (log 1). -/
  pending : List Command
  deriving DecidableEq, Repr

/-- No configuration register holds a value. -/
def CfgRegs.noValue : CfgRegs := { res := none, baud := none, delay := none, bidir := none }

/-- No timing register holds a value. -/
def TimingRegs.noValue : TimingRegs :=
  { period := none, t1h := none, t1l := none, t0h := none, t0l := none, gapTicks := none, gapHalf := none }

/-- No symbol register holds a value. -/
def SymbolRegs.noValue : SymbolRegs := { bit1 := none, bit0 := none, gap := none }

/-- No result register holds a value. -/
def ResultRegs.noValue : ResultRegs := { code := none, count := none, flags := none, frame := none }

/-- The "power-on" column of 10_state.md R40, with the parameters at the defaults of 00_scope.md R7. The inputs, which R41
calls no state, are DESIGN CHOICES: nothing issued, every output buffer empty (log 1, 6, 8, 9). -/
def State.reset : State :=
  { par := Params.defaults
    inst := .absent
    cfg := CfgRegs.noValue
    tim := TimingRegs.noValue
    sym := SymbolRegs.noValue
    bitOrder := .msbFirst
    phase := none
    frameReg := none
    sseLive := false
    ssePos := none
    gapLive := false
    gapPos := none
    res := ResultRegs.noValue
    fault := []
    refused := false
    ended := .noCommand
    out := []
    free := 0
    cmd := Command.blank
    pending := [] }

end Sys2Proof.Machine
end

