-- ==== Sys2Proof/Machine/Flags.lean ====
section
/-! DEFINITION. Flag sets and their encoding (30_encoding.md R84), result codes (R85), the phase bit (R86), the BufferFull
rule (43_subencoders.md R204) and the flag composition of ENCODE (41_orchestrator.md R133, R136). -/

namespace Sys2Proof.Machine

/-- The empty flag set. -/
def noFlags : FlagSet := { complete := false, bufferFull := false }

/-- `{BufferFull}`. -/
def bufferFullOnly : FlagSet := { complete := false, bufferFull := true }

/-- "`RES_FLAGS[0]` is `Complete` and `RES_FLAGS[1]` is `BufferFull`" (30_encoding.md R84). -/
def FlagSet.encode (s : FlagSet) : BitVec 2 := BitVec.ofBool s.bufferFull ++ BitVec.ofBool s.complete

/-- The encoding of `PHASE`: `AwaitingFrame = 0`, `AwaitingGap = 1` (30_encoding.md R86). -/
def Phase.encode : Phase → BitVec 1
  | .awaitingFrame => 0#1
  | .awaitingGap => 1#1

/-- `RES_CODE` 0, `OK` (30_encoding.md R85). -/
def codeOk : BitVec 2 := 0#2

/-- `RES_CODE` 1, `InvalidArgument` (30_encoding.md R85). -/
def codeInvalidArgument : BitVec 2 := 1#2

/-- `RES_CODE` 2, `OutOfMemory` (30_encoding.md R85). -/
def codeOutOfMemory : BitVec 2 := 2#2

/-- `BufferFullRule(F, rem)` (43_subencoders.md R204). -/
def bufferFullRule (exactFillFull : Bool) (F rem : Nat) : Bool :=
  if exactFillFull then decide (F ≤ rem) else decide (F < rem)

/-- What ENCODE does after the frame phase, from the flag set the SSE returned (41_orchestrator.md R133, R134). -/
inductive AfterFrame where
  /-- Return, reporting these flags. -/
  | stop (flags : FlagSet)
  /-- Go on to the gap phase in the same command. -/
  | gapPhase
  deriving DecidableEq, Repr

/-- BufferFull stops the command; a completed unit goes on; neither flag is decided by `NEITHER_POLICY` (R133, R134). -/
def afterFrame (policy : NeitherPolicy) (s : FlagSet) : AfterFrame :=
  if s.bufferFull then .stop bufferFullOnly
  else if s.complete then .gapPhase
  else match policy with
    | .stop => .stop noFlags
    | .fallThrough => .gapPhase

/-- `PHASE` after the frame phase: only a completed unit moves it (R133). -/
def phaseAfterFrame (s : FlagSet) (p : Phase) : Phase := if s.complete then .awaitingGap else p

/-- `PHASE` after the gap phase: only a completed unit moves it (R136). -/
def phaseAfterGap (s : FlagSet) (p : Phase) : Phase := if s.complete then .awaitingFrame else p

/-- `RES_FLAGS` after the gap phase: the two flags are tested independently (R136). -/
def flagsAfterGap (s : FlagSet) : FlagSet :=
  { complete := s.complete, bufferFull := s.bufferFull }

end Sys2Proof.Machine
end

