-- ==== Sys2Proof/Machine/Ops.lean ====
section
/-! DEFINITION. The named operations over the state: appending to an output buffer, reading the frame buffer, the register updates the meanings share, ending a command by a return, a refusal or a fault, and
taking a command from the host. -/

namespace Sys2Proof.Machine

/-- What a meaning answers. -/
abbrev Result := Host.Outcome State Fault Refusal

/-! ### Output buffers -/

/-- The contents of a channel's output buffer; an unlisted channel's is empty (log 8). -/
def Memory.read (c : Chan) : Memory → List Symbol
  | [] => []
  | (d, b) :: m => if c = d then b else Memory.read c m

/-- One symbol at the next free position of channel `c`'s buffer (20_memory.md R55), in the canonical form. -/
def Memory.append (c : Chan) (y : Symbol) : Memory → Memory
  | [] => [(c, [y])]
  | (d, b) :: m =>
    if c < d then (c, [y]) :: (d, b) :: m
    else if c = d then (d, b ++ [y]) :: m
    else (d, b) :: Memory.append c y m

/-- The canonical form: channels strictly rising, and no entry equal to what an unlisted channel reads as (log 8). -/
abbrev Memory.wf (m : Memory) : Prop :=
  m.Pairwise (fun a b => a.1 < b.1) ∧ ∀ e ∈ m, e.2 ≠ []

/-- `Append(chan, sym)`: it "reduces `free(chan)` by 1" (20_memory.md R55). -/
def State.append (c : Chan) (y : Symbol) (s : State) : State :=
  { s with out := s.out.append c y, free := s.free - 1 }

/-- The symbols of one delegate call, appended in order (20_memory.md R60). -/
def State.appendAll (c : Chan) : List Symbol → State → State
  | [], s => s
  | y :: ys, s => State.appendAll c ys (s.append c y)

/-! ### The frame buffer -/

/-- `MemRead(FB, k, 1)`: "byte 0 is `FRAME_REG[7:0]` and byte 1 is `FRAME_REG[15:8]`" (20_memory.md R51, R52). No access goes
outside the offsets 0 and 1. -/
def fbRead (frame : BitVec 16) (k : Nat) : BitVec 8 :=
  if k = 0 then frame.extractLsb' 0 8 else frame.extractLsb' 8 8

/-- The place of bit `k` of the unit in its byte: `7 - (k mod 8)`, most significant first (43_subencoders.md R203). -/
def bitPlace : BitOrder → Nat → Nat
  | .msbFirst, k => 7 - k % 8

/-- `Bit(FB, k) = (MemRead(FB, k div 8, 1) >> (7 - (k mod 8))) & 1` (43_subencoders.md R203). -/
def fbBit (o : BitOrder) (frame : BitVec 16) (k : Nat) : Bool :=
  decide ((fbRead frame (k / 8) >>> bitPlace o k) &&& 1#8 = 1#8)

/-! ### Register updates -/

/-- `FRAME_REG <- w`, one 16-bit write (20_memory.md R58). -/
def State.writeFrame (w : Half) (s : State) : State := { s with frameReg := some w }

/-- `PHASE <- p`. -/
def State.setPhase (p : Phase) (s : State) : State := { s with phase := some p }

/-- `SSE_POS <- p`. -/
def State.setSsePos (p : Fin 16) (s : State) : State := { s with ssePos := some p }

/-- `GAP_POS <- p`. -/
def State.setGapPos (p : Fin 1) (s : State) : State := { s with gapPos := some p }

/-- `SSE.destroy()` sets `SSE_LIVE <- 0`, and `SSE_POS` then holds no value (43_subencoders.md R206). -/
def State.dropSse (s : State) : State := { s with sseLive := false, ssePos := none }

/-- `GAP.destroy()` sets `GAP_LIVE <- 0`, and `GAP_POS` then holds no value (43_subencoders.md R209). -/
def State.dropGap (s : State) : State := { s with gapLive := false, gapPos := none }

/-- The orchestrator's own storage is released: `INST <- Destroyed`, and its registers hold no value (41_orchestrator.md R141). -/
def State.releaseStorage (s : State) : State :=
  { s with inst := .destroyed, cfg := CfgRegs.noValue, tim := TimingRegs.noValue, sym := SymbolRegs.noValue, phase := none,
           frameReg := none }

/-- The register writes of a successful CONSTRUCT, in the order of 42_construction_timing.md R170. -/
def State.install (cfg : CfgRegs) (tim : TimingRegs) (sym : SymbolRegs) (s : State) : State :=
  { s with cfg := cfg, tim := tim, sym := sym, sseLive := true, ssePos := some 0, gapLive := true, gapPos := some 0,
           phase := some .awaitingFrame, frameReg := none, inst := .live }

/-! ### Ending a command -/

/-- The result registers a return writes: `RES_CODE` always, the others where the command's rule names them. A register the
command does not write keeps its bits (10_state.md R35, R40; log 7). -/
def State.writeResults (code : BitVec 2) (count : Option Word) (flags : Option (BitVec 2)) (frame : Option Half) (s : State) :
    State :=
  { s with res := { code := some code, count := count.or s.res.count, flags := flags.or s.res.flags,
                    frame := frame.or s.res.frame },
           ended := .returned { count := count.isSome, flags := flags.isSome, frame := frame.isSome } }

/-- `return`, or `raise` with an error code (00_scope.md R12): a command that writes `RES_CODE` alone. -/
def finish (code : BitVec 2) (s : State) : Result := .next (s.writeResults code none none none)

/-- The return of ENCODE: count and flags (41_orchestrator.md R130). -/
def finishEncode (count : Nat) (flags : FlagSet) (s : State) : Result :=
  .next (s.writeResults codeOk (some (BitVec.ofNat 32 count)) (some flags.encode) none)

/-- The return of BUILD_FRAME: the frame (40_frame_builder.md R107). -/
def finishFrame (w : Half) (s : State) : Result := .next (s.writeResults codeOk none none (some w))

/-- "A fault adds its reason" to the set `FAULT` (10_state.md R39). -/
def State.addFault (f : Fault) (s : State) : State :=
  { s with fault := if f ∈ s.fault then s.fault else s.fault ++ [f], ended := .faulted f }

/-- `fault <Reason>` "puts the model in the faulted state" (00_scope.md R12, 60_exceptions.md R234). There is no handler and no
return from it (R240, R241): `step` takes no further command (R236, log 4). -/
def raiseFault (f : Fault) (s : State) : Result := .next (s.addFault f)

/-- "A refusal sets `REFUSED`": no other register changes (60_exceptions.md R235). -/
def State.markRefused (r : Refusal) (s : State) : State := { s with refused := true, ended := .refused r }

/-- `refuse <Reason>` (00_scope.md R12, 60_exceptions.md R235; log 5). -/
def refuse (r : Refusal) (s : State) : Result := .next (s.markRefused r)

/-! ### The host -/

/-- The block takes the host's next command: its operands and draws stand in the port while it runs (log 1, log 9). -/
def State.accept (c : Command) (rest : List Command) (s : State) : State :=
  { s with cmd := c, free := c.free, pending := rest }

/-- What the host reads after a command: a result register that the command did not write "holds no value for that command"
(10_state.md R35), and a refused or faulted command has no result. -/
def State.hostReads (s : State) : ResultRegs :=
  match s.ended with
  | .returned w =>
    { code := s.res.code
      count := if w.count then s.res.count else none
      flags := if w.flags then s.res.flags else none
      frame := if w.frame then s.res.frame else none }
  | _ => ResultRegs.noValue

/-- The word `w` in place of the word of the next command the block will take; a blank command carries it where the host has
issued none (log 1). -/
def placeWord (w : Word) : List Command → List Command
  | [] => [{ Command.blank with cw := w }]
  | c :: rest => { c with cw := w } :: rest

end Sys2Proof.Machine
end

