-- ==== Sys2Proof/Machine/Operands.lean ====
section
/-! DEFINITION. Operand forms: reading a register that may hold no value, and the operands that the command port carries beside the word
(30_encoding.md R70 to R76). -/

namespace Sys2Proof.Machine

/-- Reading a register: "A rule that reads such a register faults" (00_scope.md R10, 10_state.md R40, 60_exceptions.md R234 `UnwrittenRead`,
93_implementation_defined.md I16). -/
def need {α : Type} (r : Reg) (v : Option α) (s : State) (k : α → Result) : Result :=
  match v with
  | some x => k x
  | none => raiseFault (.unwrittenRead r) s

/-- `RES`, "used as 32-bit unsigned values" (30_encoding.md R74, R76). -/
def State.opRes (s : State) : Nat := s.cmd.res.toNat

/-- `BAUD` (30_encoding.md R74, R76). -/
def State.opBaud (s : State) : Nat := s.cmd.baud.toNat

/-- `DELAY` (30_encoding.md R74, R76). -/
def State.opDelay (s : State) : Nat := s.cmd.delay.toNat

/-- `chan` (30_encoding.md R72), forwarded unchanged to each delegate call (41_orchestrator.md R142). -/
def State.opChan (s : State) : Chan := s.cmd.chan

/-- `throttle[10:0]`: "the low 11 bits are meaningful" (30_encoding.md R76, 40_frame_builder.md R100). -/
def throttle11 (thr : BitVec 16) : BitVec 11 := thr.extractLsb' 0 11

end Sys2Proof.Machine
end

