-- ==== Sys2Proof/Machine/Construction.lean ====
section
/-! DEFINITION. Construction (42_construction_timing.md): the timing derivation R172 to R177, the check R178, the allocation R179, CONSTRUCT (R170) and its null form (R171). Arithmetic is exact, on naturals (00_scope.md R9). -/

namespace Sys2Proof.Machine

/-- The derived tick counts of one configuration (10_state.md R26, R27). -/
structure Timing where
  period : Nat
  t1h : Nat
  t1l : Nat
  t0h : Nat
  t0l : Nat
  gapTicks : Nat
  gapHalf : Nat
  deriving DecidableEq, Repr

/-- `gap_ticks <- (RES div 1000000) * DELAY` (R172). -/
def gapTicksOf (res delay : Nat) : Nat := res / 1000000 * delay

/-- `gap_half <- gap_ticks div 2` (R173). -/
def gapHalfOf (gapTicks : Nat) : Nat := gapTicks / 2

/-- `period <- RES div BAUD` (R174). -/
def periodOf (res baud : Nat) : Nat := res / baud

/-- `t1h <- (period * 1497) div 2000` (R175). -/
def t1hOf (period : Nat) : Nat := period * 1497 / 2000

/-- `t0h <- (period * 1497) div 4000` (R176). -/
def t0hOf (period : Nat) : Nat := period * 1497 / 4000

/-- All tick counts of a configuration (R172 to R176). -/
def deriveTiming (res baud delay : Nat) : Timing :=
  let period := periodOf res baud
  let gapTicks := gapTicksOf res delay
  { period := period
    t1h := t1hOf period
    t1l := period - t1hOf period
    t0h := t0hOf period
    t0l := period - t0hOf period
    gapTicks := gapTicks
    gapHalf := gapHalfOf gapTicks }

/-- `DUR_MAX = 2^DUR_BITS - 1` (00_scope.md R7). -/
def durMax (p : Params) : Nat := 2 ^ p.durBits - 1

/-- Each of `t1h`, `t1l`, `t0h`, `t0l` and `gap_half` is at most `DUR_MAX` (R178). -/
def fitsDurations (p : Params) (t : Timing) : Bool :=
  decide (t.t1h ≤ durMax p) && decide (t.t1l ≤ durMax p) && decide (t.t0h ≤ durMax p) && decide (t.t0l ≤ durMax p)
    && decide (t.gapHalf ≤ durMax p)

/-- The configuration registers of the operands (R170). -/
def cfgOf (res baud delay : Word) (bidir : Bool) : CfgRegs :=
  { res := some res, baud := some baud, delay := some delay, bidir := some bidir }

/-- The timing registers of the derived counts (R170). -/
def timingRegsOf (t : Timing) : TimingRegs :=
  { period := some t.period, t1h := some t.t1h, t1l := some t.t1l, t0h := some t.t0h, t0l := some t.t0l,
    gapTicks := some t.gapTicks, gapHalf := some t.gapHalf }

/-- Symbol formation (R177): a bit is high, then low; both segments of the gap are low. -/
def symbolRegsOf (t : Timing) : SymbolRegs :=
  { bit1 := some { level0 := true, dur0 := t.t1h, level1 := false, dur1 := t.t1l }
    bit0 := some { level0 := true, dur0 := t.t0h, level1 := false, dur1 := t.t0l }
    gap := some { level0 := false, dur0 := t.gapHalf, level1 := false, dur1 := t.gapHalf } }

/-- CONSTRUCT, configured form (R170), its checks in the order of 60_exceptions.md R237. An allocation that fails releases what
was allocated before it, "so no register of the instance changes" (R179). -/
def execConstruct (bidir : Bool) (s : State) : Result :=
  if s.inst = .live then raiseFault (.alreadyLive s.cmd.cw) s
  else if s.opRes = 0 ∨ s.opBaud = 0 then refuse .configNotAdmitted s
  else
    let t := deriveTiming s.opRes s.opBaud s.opDelay
    if fitsDurations s.par t = false then refuse .configNotAdmitted s
    else if s.cmd.a1 = false then finish codeOutOfMemory s
    else if s.cmd.a2 = false then finish codeOutOfMemory s
    else if s.cmd.a3 = false then finish codeOutOfMemory s
    else
      finish codeOk
        (s.install (cfgOf s.cmd.res s.cmd.baud s.cmd.delay bidir) (timingRegsOf t) (symbolRegsOf t))

/-- CONSTRUCT, null form: the configuration is missing (R170, R171). -/
def execConstructNull (s : State) : Result :=
  if s.inst = .live then raiseFault (.alreadyLive s.cmd.cw) s
  else finish codeInvalidArgument s

end Sys2Proof.Machine
end

