-- ==== Sys2Proof/Machine/FrameBuilder.lean ====
section
/-! DEFINITION. The frame builder (40_frame_builder.md R100 to R105) and BUILD_FRAME (R107). -/

namespace Sys2Proof.Machine

/-- Step 1, packing: `v` (R100). -/
def packFrame (thr : BitVec 16) (tlm : Bool) : BitVec 16 :=
  ((throttle11 thr).setWidth 16 <<< 5) ||| ((bit tlm).setWidth 16 <<< 4)

/-- Step 2, the CRC seed of the packed value (R101). -/
def crcSeed (v : BitVec 16) : BitVec 16 := v ^^^ (v >>> 4) ^^^ (v >>> 8)

/-- Step 3, bidirectional inversion, "complement within 16 bits" (R102). -/
def invertSeed (bidir : Bool) (seed : BitVec 16) : BitVec 16 := if bidir then ~~~seed else seed

/-- Step 4, CRC extraction, mask before shift (R103, 90_conflicts.md C1). -/
def crcOfSeed (seed : BitVec 16) : BitVec 4 := ((seed &&& 0x00F0#16) >>> 4).setWidth 4

/-- Step 5, CRC insertion: `F` (R104). -/
def insertCrc (v : BitVec 16) (crc : BitVec 4) : BitVec 16 := v ||| crc.setWidth 16

/-- Step 6, byte swap: `W` (R105). -/
def swapBytes (f : BitVec 16) : BitVec 16 := ((f &&& 0x00FF#16) <<< 8) ||| ((f &&& 0xFF00#16) >>> 8)

/-- The CRC of a packed value (R101 to R103). -/
def crcOf (v : BitVec 16) (bidir : Bool) : BitVec 4 := crcOfSeed (invertSeed bidir (crcSeed v))

/-- The frame before the swap, `F` (R100 to R104). -/
def frameValue (thr : BitVec 16) (tlm bidir : Bool) : BitVec 16 :=
  insertCrc (packFrame thr tlm) (crcOf (packFrame thr tlm) bidir)

/-- The wire-order frame, `W` of `BuildFrame(thr, tlm, bidir)` (R100 to R105). -/
def wireFrame (thr : BitVec 16) (tlm bidir : Bool) : BitVec 16 := swapBytes (frameValue thr tlm bidir)

/-- BUILD_FRAME (R107): it reads no register of the instance and writes `RES_FRAME` and `RES_CODE`. -/
def execBuildFrame (thr : BitVec 16) (tlm bidir : Bool) (s : State) : Result :=
  finishFrame (wireFrame thr tlm bidir) s

end Sys2Proof.Machine
end

