-- ==== Sys2Proof/Machine/SubEncoders.lean ====
section
/-! DEFINITION. The sub-encoders (43_subencoders.md): the contract R201, the reference behaviour R202 to R209, and the calls the
orchestrator makes. A command may carry the answer of another collaborator (log 11); every answer is checked. -/

namespace Sys2Proof.Machine

/-! ### Units -/

/-- The SSE's unit: one symbol for each of the `8 * size` payload bits (R201, R203). -/
def sseUnit (o : BitOrder) (bit1 bit0 : Symbol) (frame : BitVec 16) (size : Nat) : List Symbol :=
  (List.range (8 * size)).map fun k => if fbBit o frame k then bit1 else bit0

/-- The GAP's unit: the gap symbol, "copied verbatim" (R207). Its length does not depend on the size argument. -/
def gapUnit (gap : Symbol) (_size : Nat) : List Symbol := [gap]

/-- `FRAME_BYTES` (00_scope.md R7): the size argument of the SSE call. -/
def frameBytes : Nat := 2

/-! ### Answers -/

/-- The reference `SSE.encode` (R202) on a unit of which `pos` symbols are out, with free space `F`. -/
def sseReference (exactFillFull : Bool) (F pos : Nat) (unit : List Symbol) : Answer :=
  let rem := unit.length - pos
  let n := min rem F
  { n := n
    flags := { complete := decide (pos + n = unit.length), bufferFull := bufferFullRule exactFillFull F rem }
    symbols := (unit.drop pos).take n
    stray := false }

/-- The reference `GAP.encode` (R207). -/
def gapReference (exactFillFull : Bool) (F pos : Nat) (unit : List Symbol) : Answer :=
  let rem := unit.length - pos
  let n := min rem F
  { n := n
    flags := { complete := decide (pos + n = unit.length), bufferFull := bufferFullRule exactFillFull F rem }
    symbols := (unit.drop pos).take n
    stray := false }

/-- The contract obligations 1 to 5 on `D.encode` (R201); `stray` is the "nothing else" of obligation 2. -/
def contractMet (F pos : Nat) (unit : List Symbol) (a : Answer) : Bool :=
  decide (a.n ≤ F) && decide (a.n ≤ unit.length - pos)
    && decide (a.symbols.length = a.n) && !a.stray
    && decide (a.symbols = (unit.drop pos).take a.n)
    && decide (a.flags.complete = decide (pos + a.n = unit.length))
    && (decide (a.n ≠ 0) || a.flags.bufferFull)

/-- The position of the SSE after a call: it advances by `n`, and "On completion the position returns to 0" (R201, R202). -/
def nextSsePos (pos : Fin 16) (n : Nat) : Fin 16 :=
  if h : pos.val + n < 16 then ⟨pos.val + n, h⟩ else 0

/-- The position of the GAP after a call (R201, R207). -/
def nextGapPos (pos : Fin 1) (n : Nat) : Fin 1 :=
  if h : pos.val + n < 1 then ⟨pos.val + n, h⟩ else 0

/-! ### Calls -/

/-- The SSE's answer to the call of this command: that of the collaborator the command carries, else the reference one. -/
def sseAnswer (s : State) (pos : Nat) (unit : List Symbol) : Answer :=
  s.cmd.sse.getD (sseReference s.par.exactFillFull s.free pos unit)

/-- The GAP's answer to the call of this command. -/
def gapAnswer (s : State) (pos : Nat) (unit : List Symbol) : Answer :=
  s.cmd.gap.getD (gapReference s.par.exactFillFull s.free pos unit)

/-- The SSE has answered `a`: the symbols are appended, the contract is checked, and the count and flag set go on to `k`. A broken
contract faults; the symbols stay in the buffer (43_subencoders.md R201, 60_exceptions.md R240, log 13). -/
def finishSseCall (s : State) (pos : Fin 16) (unit : List Symbol) (a : Answer) (k : Nat → FlagSet → State → Result) : Result :=
  if contractMet s.free pos.val unit a then
    k a.n a.flags ((s.appendAll s.opChan a.symbols).setSsePos (nextSsePos pos a.n))
  else
    raiseFault (.collaboratorContractViolation s.cmd.cw .sse a.n a.flags) (s.appendAll s.opChan a.symbols)

/-- The GAP has answered `a`. -/
def finishGapCall (s : State) (pos : Fin 1) (unit : List Symbol) (a : Answer) (k : Nat → FlagSet → State → Result) : Result :=
  if contractMet s.free pos.val unit a then
    k a.n a.flags ((s.appendAll s.opChan a.symbols).setGapPos (nextGapPos pos a.n))
  else
    raiseFault (.collaboratorContractViolation s.cmd.cw .gap a.n a.flags) (s.appendAll s.opChan a.symbols)

/-- `call SSE.encode(chan, FB, 2)` (41_orchestrator.md R132). -/
def callSse (s : State) (k : Nat → FlagSet → State → Result) : Result :=
  need .ssePos s.ssePos s fun pos =>
  need .frameReg s.frameReg s fun frame =>
  need .bit1Sym s.sym.bit1 s fun bit1 =>
  need .bit0Sym s.sym.bit0 s fun bit0 =>
  let unit := sseUnit s.bitOrder bit1 bit0 frame frameBytes
  finishSseCall s pos unit (sseAnswer s pos.val unit) k

/-- `call GAP.encode(chan, [GAP_SYM], SYMBOL_BYTES)` (41_orchestrator.md R135). -/
def callGap (s : State) (k : Nat → FlagSet → State → Result) : Result :=
  need .gapPos s.gapPos s fun pos =>
  need .gapSym s.sym.gap s fun gap =>
  let unit := gapUnit gap s.par.symbolBytes
  finishGapCall s pos unit (gapAnswer s pos.val unit) k

/-- A delegate's reset or destroy appends no symbol and does nothing else (43_subencoders.md R205, R206, R209; 92_eei_decisions.md
D39). The reference collaborators behave so. DEDUCED, safe: log 12. -/
def quiet : Option Answer → Bool
  | none => true
  | some a => a.symbols.isEmpty && !a.stray

/-- What a collaborator's answer records in a fault (60_exceptions.md R234): its `n`. -/
def answerCount (a : Option Answer) : Nat := (a.map Answer.n).getD 0

/-- What a collaborator's answer records in a fault (60_exceptions.md R234): its `s`. -/
def answerFlags (a : Option Answer) : FlagSet := (a.map Answer.flags).getD noFlags

/-- The symbols a misbehaving reset or destroy appends. -/
def answerSymbols (a : Option Answer) : List Symbol := (a.map Answer.symbols).getD []

/-- The violation of a delegate's reset or destroy (60_exceptions.md R234). RESET and DESTROY carry no channel (30_encoding.md R73) and the
spec does not say where such a delegate appends: its symbols go to the buffer of the `chan` that stands in the command port, and
stay there. DESIGN CHOICE, safe: log 24. -/
def misbehaved (d : Delegate) (a : Option Answer) (s : State) : Result :=
  raiseFault (.collaboratorContractViolation s.cmd.cw d (answerCount a) (answerFlags a)) (s.appendAll s.opChan (answerSymbols a))

/-- `call SSE.reset()`: `SSE_POS <- 0` (43_subencoders.md R205). -/
def callSseReset (s : State) (k : State → Result) : Result :=
  if quiet s.cmd.sse then k (s.setSsePos 0) else misbehaved .sse s.cmd.sse s

/-- `call GAP.reset()`: `GAP_POS <- 0` (43_subencoders.md R209). -/
def callGapReset (s : State) (k : State → Result) : Result :=
  if quiet s.cmd.gap then k (s.setGapPos 0) else misbehaved .gap s.cmd.gap s

/-- `call SSE.destroy()` (43_subencoders.md R206). -/
def callSseDestroy (s : State) (k : State → Result) : Result :=
  if quiet s.cmd.sse then k s.dropSse else misbehaved .sse s.cmd.sse s

/-- `call GAP.destroy()` (43_subencoders.md R209). -/
def callGapDestroy (s : State) (k : State → Result) : Result :=
  if quiet s.cmd.gap then k s.dropGap else misbehaved .gap s.cmd.gap s

end Sys2Proof.Machine
end

