-- ==== Sys2Proof/Machine/Orchestrator.lean ====
section
/-! DEFINITION. The orchestrator (41_orchestrator.md): ENCODE (R130 to R138), RESET (R140), DESTROY (R141). -/

namespace Sys2Proof.Machine

/-- The gap phase and the return (R135, R136), with the `count` of the frame phase. -/
def gapPhase (count : Nat) (p : Phase) (s : State) : Result :=
  callGap s fun n flags s' =>
    finishEncode (count + n) (flagsAfterGap flags) (s'.setPhase (phaseAfterGap flags p))

/-- The frame phase, and what follows it (R132 to R134). -/
def framePhase (s : State) : Result :=
  callSse s fun n flags s' =>
    let p := phaseAfterFrame flags .awaitingFrame
    match afterFrame s.par.neitherPolicy flags with
    | .stop reported => finishEncode n reported (s'.setPhase p)
    | .gapPhase => gapPhase n p (s'.setPhase p)

/-- ENCODE (R130). The refusal of a shared buffer (20_memory.md R65) follows the lifecycle check (log 14). -/
def execEncode (thr : Half) (tlm : Bool) (s : State) : Result :=
  if s.inst ≠ .live then raiseFault (.noInstance s.cmd.cw) s
  else if s.cmd.shared then refuse .sharedOutputBuffer s
  else
    need .cfgBidir s.cfg.bidir s fun bidir =>
    let s' := s.writeFrame (wireFrame thr tlm bidir)
    need .phase s'.phase s' fun p =>
    match p with
    | .awaitingFrame => framePhase s'
    | .awaitingGap => gapPhase 0 .awaitingGap s'

/-- RESET (R140). -/
def execReset (s : State) : Result :=
  if s.inst ≠ .live then raiseFault (.noInstance s.cmd.cw) s
  else
    callSseReset s fun s₁ =>
    callGapReset s₁ fun s₂ =>
    finish codeOk (s₂.setPhase .awaitingFrame)

/-- DESTROY (R141). -/
def execDestroy (s : State) : Result :=
  if s.inst ≠ .live then raiseFault (.noInstance s.cmd.cw) s
  else
    callSseDestroy s fun s₁ =>
    callGapDestroy s₁ fun s₂ =>
    finish codeOk s₂.releaseStorage

end Sys2Proof.Machine
end

