-- ==== Sys2Proof/Machine/Dispatch.lean ====
section
/-! DEFINITION. One arm for each constructor of Instr. -/

namespace Sys2Proof.Machine

def exec (i : Instr) (s : State) : Host.Outcome State Fault Refusal :=
  match i with
  | .encode thr tlm => Sys2Proof.Machine.execEncode thr tlm s
  | .reset => Sys2Proof.Machine.execReset s
  | .destroy => Sys2Proof.Machine.execDestroy s
  | .construct bidir => Sys2Proof.Machine.execConstruct bidir s
  | .constructNull => Sys2Proof.Machine.execConstructNull s
  | .buildFrame thr tlm bidir => Sys2Proof.Machine.execBuildFrame thr tlm bidir s

end Sys2Proof.Machine
end

