-- ==== Sys2Proof/Machine/Step.lean ====
section
/-! DEFINITION. One step: the block takes the host's next command and executes it to completion (30_encoding.md R70). -/

namespace Sys2Proof.Machine

/-- One step of the block.
- In the faulted state "the block takes no further command" (60_exceptions.md R236): the step answers the recorded fault (log 4).
- With no command issued "it is idle and keeps all of its state" (60_exceptions.md R247, log 16).
- A reserved word is refused before anything else (30_encoding.md R77; 60_exceptions.md R237, R238). -/
def step (s : State) : Host.Outcome State Fault Refusal :=
  match s.fault with
  | f :: _ => .fault f
  | [] =>
    match s.pending with
    | [] => .next s
    | c :: rest =>
      match decode c.cw with
      | .reservedEncoding => refuse .reservedEncoding (s.accept c rest)
      | .command i => exec i (s.accept c rest)

/-- `s` with the word `w` as the word of the next command the block takes (log 1). A word of another length is none (30_encoding.md R78). -/
def State.withFetchWord (s : State) (_nbits w : Nat) : State :=
  { s with pending := placeWord (BitVec.ofNat 32 w) s.pending }

end Sys2Proof.Machine
end

