-- ==== Sys2Proof/Machine/Assembler.lean ====
section
/-! DEFINITION. The assembly form of 30_encoding.md R80, R81: from the text of a program to the commands a host issues. It is no part of
the block; a program in it becomes the list `pending`. What R80 leaves open of the text is log 20. -/

namespace Sys2Proof.Machine

/-! ### Text -/

/-- A blank inside a line. -/
def isBlank (c : Char) : Bool := c == ' ' || c == '\t' || c == '\r'

/-- The pieces of a text between the characters `p` picks. -/
def splitText (p : Char → Bool) : List Char → List (List Char)
  | [] => [[]]
  | c :: cs =>
    match splitText p cs with
    | [] => [[]]
    | w :: ws => if p c then [] :: w :: ws else (c :: w) :: ws

/-- The words of a text. -/
def wordsOf (t : List Char) : List (List Char) := (splitText isBlank t).filter (fun w => !w.isEmpty)

/-- The value of one digit, decimal or hexadecimal. -/
def digitValue (c : Char) : Option Nat :=
  if '0' ≤ c ∧ c ≤ '9' then some (c.toNat - '0'.toNat)
  else if 'a' ≤ c ∧ c ≤ 'f' then some (c.toNat - 'a'.toNat + 10)
  else if 'A' ≤ c ∧ c ≤ 'F' then some (c.toNat - 'A'.toNat + 10)
  else none

/-- The digits of a number, all below the base, most significant first. -/
def digitsValue (base acc : Nat) : List Char → Option Nat
  | [] => some acc
  | c :: cs =>
    match digitValue c with
    | some d => if d < base then digitsValue base (base * acc + d) cs else none
    | none => none

/-- "Numbers are decimal, or hexadecimal with a leading `0x`" (R80). -/
def numberOf : List Char → Option Nat
  | [] => none
  | '0' :: 'x' :: d :: ds => digitsValue 16 0 (d :: ds)
  | d :: ds => digitsValue 10 0 (d :: ds)

/-- The rest of a text after the given start, if it has that start. -/
def afterStart : List Char → List Char → Option (List Char)
  | [], t => some t
  | _ :: _, [] => none
  | c :: cs, d :: ds => if c = d then afterStart cs ds else none

/-! ### Lines -/

/-- "`;` starting a comment": the text before it and the text after it (R80). R80 shows its annotations after a blank, and the
comment is what follows the semicolon, so `;free=64` annotates as `; free=64` does. DESIGN CHOICE, safe: log 20. -/
def cutComment (t : List Char) : List Char × List Char :=
  (t.takeWhile (fun c => c != ';'), (t.dropWhile (fun c => c != ';')).drop 1)

/-- The operands of a line, separated by commas, each one word; none where nothing follows the mnemonic. -/
def operandWords (t : List Char) : Option (List (List Char)) :=
  if (wordsOf t).isEmpty then some []
  else (splitText (fun c => c == ',') t).mapM fun piece =>
    match wordsOf piece with
    | [w] => some w
    | _ => none

/-- A mnemonic with its numeric operands, the pseudo-instructions of R81 expanded. -/
def lineOf (mnemonic : List Char) (ops : List Nat) : Option AsmLine :=
  if mnemonic = ['E', 'N', 'C', 'O', 'D', 'E'] then
    match ops with
    | [thr] => some (.encode thr 0)
    | [thr, tlm] => some (.encode thr tlm)
    | _ => none
  else if mnemonic = ['R', 'E', 'S', 'E', 'T'] then
    if ops.isEmpty then some .reset else none
  else if mnemonic = ['D', 'E', 'S', 'T', 'R', 'O', 'Y'] then
    if ops.isEmpty then some .destroy else none
  else if mnemonic = ['C', 'O', 'N', 'S', 'T', 'R', 'U', 'C', 'T'] then
    match ops with
    | [res, baud, delay, bidir] => some (.construct res baud delay bidir)
    | _ => none
  else if mnemonic = ['B', 'U', 'I', 'L', 'D', '_', 'F', 'R', 'A', 'M', 'E'] then
    match ops with
    | [thr, tlm] => some (.buildFrame thr tlm 0)
    | [thr, tlm, bidir] => some (.buildFrame thr tlm bidir)
    | _ => none
  else none

/-- The command of a line without its comment (R80). -/
def parseCode (t : List Char) : Option AsmLine :=
  let t := t.dropWhile isBlank
  let mnemonic := t.takeWhile (fun c => !isBlank c)
  match operandWords (t.dropWhile (fun c => !isBlank c)) with
  | none => none
  | some ws =>
    if mnemonic = ['C', 'O', 'N', 'S', 'T', 'R', 'U', 'C', 'T'] ∧ ws = [['n', 'u', 'l', 'l']] then some .constructNull
    else
      match ws.mapM numberOf with
      | some ops => lineOf mnemonic ops
      | none => none

/-! ### Environment annotations -/

/-- "each `ok` or `fail`" (R80). -/
def allocOf (w : List Char) : Option Bool :=
  if w = ['o', 'k'] then some true else if w = ['f', 'a', 'i', 'l'] then some false else none

/-- One word of a comment: `free=<n>`, `alloc=<a>,<b>,<c>` (R80), or a word that annotates nothing. -/
def annotate (w : List Char) (c : Command) : Option Command :=
  match afterStart ['f', 'r', 'e', 'e', '='] w with
  | some n => (numberOf n).map fun free => { c with free := free }
  | none =>
    match afterStart ['a', 'l', 'l', 'o', 'c', '='] w with
    | some l =>
      match (splitText (fun c => c == ',') l).mapM allocOf with
      | some [x, y, z] => some { c with a1 := x, a2 := y, a3 := z }
      | _ => none
    | none => some c

/-- Every annotation of a comment, from left to right: of two annotations of one kind the later wins, a point R80 leaves open. DESIGN CHOICE,
safe: log 20. -/
def annotateAll : List (List Char) → Command → Option Command
  | [], c => some c
  | w :: ws, c =>
    match annotate w c with
    | some c' => annotateAll ws c'
    | none => none

/-! ### Programs -/

/-- The instruction of a line (R80, R72 to R75). -/
def instrOf : AsmLine → Instr
  | .encode thr tlm => .encode (BitVec.ofNat 16 thr) (tlm == 1)
  | .reset => .reset
  | .destroy => .destroy
  | .construct _ _ _ bidir => .construct (bidir == 1)
  | .constructNull => .constructNull
  | .buildFrame thr tlm bidir => .buildFrame (BitVec.ofNat 16 thr) (tlm == 1) (bidir == 1)

/-- The command of a line before its annotations: the word and the operands of R74. -/
def commandOf (chan : Chan) (l : AsmLine) : Command :=
  let c := { Command.blank with cw := encode (instrOf l), chan := chan }
  match l with
  | .construct res baud delay _ =>
    { c with res := BitVec.ofNat 32 res, baud := BitVec.ofNat 32 baud, delay := BitVec.ofNat 32 delay }
  | .encode _ _ => c
  | .reset => c
  | .destroy => c
  | .constructNull => c
  | .buildFrame _ _ _ => c

/-- One line: no command where it is blank or a comment, none at all where it breaks R80. -/
def assembleLine (chan : Chan) (t : List Char) : Option (List Command) :=
  let (code, comment) := cutComment t
  if (wordsOf code).isEmpty then some []
  else
    match parseCode code with
    | none => none
    | some l =>
      if l.wellFormed then (annotateAll (wordsOf comment) (commandOf chan l)).map fun c => [c]
      else none

/-- A program, "one command per line" (R80): the commands a host issues on channel `chan`. -/
def assemble (chan : Chan) (t : List Char) : Option (List Command) :=
  ((splitText (fun c => c == '\n') t).mapM (assembleLine chan)).map List.flatten

end Sys2Proof.Machine
end

