-- ==== Sys2Proof/Safety.lean ====
section
/-! DEFINITION. What a safe run is, in the terms the claims use: the marks of 60_exceptions.md R236, and the invariant of the block's
state. -/

namespace Sys2Proof.Machine

/-- "no fault recorded" and "not refused": the premises of a claim about a command sequence (60_exceptions.md R236). -/
def Unmarked (s : State) : Prop := s.fault = [] ∧ s.refused = false

/-- No register of the instance holds a value (the columns "power-on" and "after DESTROY" of 10_state.md R40). -/
def InstanceEmpty (s : State) : Prop :=
  s.cfg = CfgRegs.noValue ∧ s.tim = TimingRegs.noValue ∧ s.sym = SymbolRegs.noValue ∧ s.phase = none ∧ s.frameReg = none
    ∧ s.sseLive = false ∧ s.ssePos = none ∧ s.gapLive = false ∧ s.gapPos = none

/-- The registers of a live block: an accepted configuration, the timing and symbols derived from it, both sub-encoders live
with a position, and a phase (10_state.md R22 to R34, 42_construction_timing.md R170 to R178, 43_subencoders.md R211). -/
def InstanceFull (s : State) : Prop :=
  (∃ res baud delay bidir,
    s.cfg = cfgOf res baud delay bidir ∧ res ≠ 0 ∧ baud ≠ 0
      ∧ s.tim = timingRegsOf (deriveTiming res.toNat baud.toNat delay.toNat)
      ∧ s.sym = symbolRegsOf (deriveTiming res.toNat baud.toNat delay.toNat)
      ∧ fitsDurations s.par (deriveTiming res.toNat baud.toNat delay.toNat) = true)
    ∧ s.phase.isSome ∧ s.sseLive = true ∧ s.ssePos.isSome ∧ s.gapLive = true ∧ s.gapPos.isSome

/-- The registers of the instance hold values exactly while `INST = Live` (10_state.md R40). -/
def LifecycleInv (s : State) : Prop :=
  match s.inst with
  | .live => InstanceFull s
  | .absent => InstanceEmpty s
  | .destroyed => InstanceEmpty s

/-- What the result registers can hold: `RES_CODE` 3 is "reserved, never produced" (30_encoding.md R85), and
`RES_COUNT ≤ 17` (41_orchestrator.md R137). -/
def ResultsInv (s : State) : Prop :=
  s.res.code ≠ some 3#2 ∧ ∀ n, s.res.count = some n → n.toNat ≤ 17

/-- A block takes no command after a fault, so it records at most one (60_exceptions.md R236, R238), and none of them is an
unwritten read, "unreachable under the rules of this spec" (R234). -/
def FaultInv (s : State) : Prop :=
  s.fault.length ≤ 1 ∧ ∀ r, Fault.unwrittenRead r ∉ s.fault

/-- While `PHASE = AwaitingGap` the SSE stands at the start of a unit: only its completed unit leads there (41_orchestrator.md R139), and "On
completion the position returns to 0" (43_subencoders.md R201). -/
def PhaseInv (s : State) : Prop := s.phase = some .awaitingGap → s.ssePos = some 0

/-- The invariant of the block. The lifecycle and phase clauses hold as long as no fault is recorded: after a contract violation
"the command has no defined result" (43_subencoders.md R201). -/
def Inv (s : State) : Prop :=
  (s.fault = [] → LifecycleInv s ∧ PhaseInv s) ∧ ResultsInv s ∧ FaultInv s ∧ s.out.wf

/-- A command with the reference collaborators, on an output buffer of its own. -/
def Command.usual (c : Command) : Prop := c.shared = false ∧ c.sse = none ∧ c.gap = none

/-- The ENCODE command a host issues on channel `chan` with the free space `free`. -/
def encodeCommand (thr : Half) (tlm : Bool) (chan : Chan) (free : Nat) : Command :=
  { Command.blank with cw := encode (.encode thr tlm), chan := chan, free := free }

/-- The host issues ENCODE commands with the same throttle and telemetry bit, one for each free space, and adds up the counts
they return; `none` where a command returns no count (41_orchestrator.md R144). -/
def encodeSeries (thr : Half) (tlm : Bool) (chan : Chan) : List Nat → State → Option (Nat × State)
  | [], s => some (0, s)
  | f :: fs, s =>
    match step { s with pending := [encodeCommand thr tlm chan f] } with
    | .next s' =>
      match s'.hostReads.count, encodeSeries thr tlm chan fs s' with
      | some n, some (m, t) => some (n.toNat + m, t)
      | _, _ => none
    | _ => none

end Sys2Proof.Machine
end

