-- ==== Sys2Proof/Certificates/Slice0/Obligations.lean ====
section
/-! DEFINITION. The statements for the provers. The formulas of namespace Claim are written from the spec's rules, apart from the
model's own definitions. -/

open Sys2Proof Sys2Proof.Machine

namespace Sys2Proof.Claim

/-- `p = {thr[10:0], tlm}` (40_frame_builder.md R106). -/
def payload (thr : BitVec 16) (tlm : Bool) : BitVec 12 := thr.extractLsb' 0 11 ++ BitVec.ofBool tlm

/-- The closed form of the CRC (40_frame_builder.md R106). -/
def crc (p : BitVec 12) (bidir : Bool) : BitVec 4 :=
  let x := p.extractLsb' 0 4 ^^^ p.extractLsb' 4 4 ^^^ p.extractLsb' 8 4
  if bidir then ~~~x else x

/-- `F`, laid out `[throttle:11][telemetry:1][crc:4]` (30_encoding.md R82). -/
def frame (thr : BitVec 16) (tlm bidir : Bool) : BitVec 16 := payload thr tlm ++ crc (payload thr tlm) bidir

/-- `W = {F[7:0], F[15:8]}` (30_encoding.md R82). -/
def wire (thr : BitVec 16) (tlm bidir : Bool) : BitVec 16 :=
  (frame thr tlm bidir).extractLsb' 0 8 ++ (frame thr tlm bidir).extractLsb' 8 8

/-- `Unswap(W) = {W[7:0], W[15:8]}` (40_frame_builder.md R109). -/
def unswap (w : BitVec 16) : BitVec 16 := w.extractLsb' 0 8 ++ w.extractLsb' 8 8

/-- `Sym(F[15]), …, Sym(F[0])` (43_subencoders.md R212). -/
def bitSymbols (f : BitVec 16) (bit1 bit0 : Symbol) : List Symbol :=
  (List.range 16).map fun k => if f.getLsbD (15 - k) then bit1 else bit0

/-- The five obligations of 43_subencoders.md R201 on an answer: free space `F`, position `pos`, the symbols of the unit. -/
def Contract (F pos : Nat) (unit : List Symbol) (a : Answer) : Prop :=
  (a.n ≤ F ∧ a.n ≤ unit.length - pos) ∧ (a.symbols.length = a.n ∧ a.stray = false)
    ∧ a.symbols = (unit.drop pos).take a.n
    ∧ (a.flags.complete = true ↔ pos + a.n = unit.length)
    ∧ (a.n = 0 → a.flags.bufferFull = true)

/-- A collaborator whose reset and destroy append nothing and do nothing else (log 12). -/
def Quiet (a : Option Answer) : Prop := ∀ x, a = some x → x.symbols = [] ∧ x.stray = false

/-- A live block that awaits a frame, with `pos` of its 16 symbols out, about to run an ENCODE on a buffer of its own. -/
def AwaitsFrame (s : State) (bidir : Bool) (bit1 bit0 : Symbol) (pos : Fin 16) : Prop :=
  s.inst = .live ∧ s.cmd.shared = false ∧ s.cfg.bidir = some bidir ∧ s.phase = some .awaitingFrame ∧ s.ssePos = some pos
    ∧ s.sym.bit1 = some bit1 ∧ s.sym.bit0 = some bit0

/-- A live block that awaits the gap, about to run an ENCODE on a buffer of its own. -/
def AwaitsGap (s : State) (bidir : Bool) (gap : Symbol) : Prop :=
  s.inst = .live ∧ s.cmd.shared = false ∧ s.cfg.bidir = some bidir ∧ s.phase = some .awaitingGap ∧ s.gapPos = some 0
    ∧ s.sym.gap = some gap

/-- The state after the SSE answered `a` in the ENCODE of `thr`, `tlm` (41_orchestrator.md R130 to R132): the frame rebuilt, the symbols
appended, the position advanced, and back at 0 after the sixteenth symbol. -/
def afterSse (thr : BitVec 16) (tlm bidir : Bool) (pos : Fin 16) (a : Answer) (s : State) : State :=
  (State.appendAll s.cmd.chan a.symbols { s with frameReg := some (wire thr tlm bidir) }).setSsePos
    (Fin.ofNat 16 (pos.val + a.n))

/-- The state after the GAP answered `g` in a command whose frame phase counted `count` and left `PHASE = p` (41_orchestrator.md
R136, R137): `RES_FLAGS` is exactly the answer's set. -/
def afterGap (count : Nat) (p : Phase) (g : Answer) (s : State) : State :=
  (((State.appendAll s.cmd.chan g.symbols s).setGapPos 0).setPhase (if g.flags.complete then .awaitingFrame else p)).writeResults
    0#2 (some (BitVec.ofNat 32 (count + g.n))) (some (BitVec.ofBool g.flags.bufferFull ++ BitVec.ofBool g.flags.complete)) none

/-- A command that returned normally and wrote no result register but `RES_CODE`. -/
def returnedCode (code : BitVec 2) (s : State) : State :=
  { s with res := { s.res with code := some code }, ended := .returned { count := false, flags := false, frame := false } }

/-- A command that was refused: "No register other than `REFUSED` changes" (60_exceptions.md R235); `ended` is the model's own. -/
def refusedFor (r : Refusal) (s : State) : State := { s with refused := true, ended := .refused r }

/-- A command that faulted in a state with no fault recorded (60_exceptions.md R234). -/
def faultedFor (f : Fault) (s : State) : State := { s with fault := [f], ended := .faulted f }

/-- A duration of this configuration is above `DUR_MAX` (42_construction_timing.md R172 to R178). -/
def TooLong (p : Params) (res baud delay : Nat) : Prop :=
  let period := res / baud
  let t1h := period * 1497 / 2000
  let t0h := period * 1497 / 4000
  2 ^ p.durBits - 1 < max (max (max t1h (period - t1h)) (max t0h (period - t0h))) (res / 1000000 * delay / 2)

/-- The state after a successful CONSTRUCT (42_construction_timing.md R170). -/
def constructed (bidir : Bool) (s : State) : State :=
  let period := s.cmd.res.toNat / s.cmd.baud.toNat
  let gapTicks := s.cmd.res.toNat / 1000000 * s.cmd.delay.toNat
  let t1h := period * 1497 / 2000
  let t0h := period * 1497 / 4000
  returnedCode 0#2
    { s with
      inst := .live
      cfg := { res := some s.cmd.res, baud := some s.cmd.baud, delay := some s.cmd.delay, bidir := some bidir }
      tim := { period := some period, t1h := some t1h, t1l := some (period - t1h), t0h := some t0h, t0l := some (period - t0h),
               gapTicks := some gapTicks, gapHalf := some (gapTicks / 2) }
      sym := { bit1 := some { level0 := true, dur0 := t1h, level1 := false, dur1 := period - t1h }
               bit0 := some { level0 := true, dur0 := t0h, level1 := false, dur1 := period - t0h }
               gap := some { level0 := false, dur0 := gapTicks / 2, level1 := false, dur1 := gapTicks / 2 } }
      phase := some .awaitingFrame
      frameReg := none
      sseLive := true
      ssePos := some 0
      gapLive := true
      gapPos := some 0 }

/-- The bits of a command word that its command uses (30_encoding.md R70, R74). -/
def usedBits (cw : BitVec 32) : BitVec 32 :=
  if cw.extractLsb' 0 4 = 0#4 then 0xFFFF001F#32
  else if cw.extractLsb' 0 4 = 3#4 then (if cw.getLsbD 6 then 0x0000006F#32 else 0x0000004F#32)
  else if cw.extractLsb' 0 4 = 4#4 then 0xFFFF003F#32
  else 0x0000000F#32

/-- A word the spec reserves (30_encoding.md R77). -/
def Reserved (cw : BitVec 32) : Prop := 5 ≤ (cw.extractLsb' 0 4).toNat ∨ cw &&& ~~~usedBits cw ≠ 0

/-- The forms of 30_encoding.md R80 with numeric operands, and the pseudo-instructions of R81: "`ENCODE <thr>` means `ENCODE <thr>, 0`",
"`BUILD_FRAME <thr>, <tlm>` means `BUILD_FRAME <thr>, <tlm>, 0`", and no other. -/
def LineForm (mnemonic : List Char) (ops : List Nat) (l : AsmLine) : Prop :=
  (mnemonic = ['E', 'N', 'C', 'O', 'D', 'E'] ∧
    ((∃ thr tlm, ops = [thr, tlm] ∧ l = .encode thr tlm) ∨ ∃ thr, ops = [thr] ∧ l = .encode thr 0)) ∨
  (mnemonic = ['R', 'E', 'S', 'E', 'T'] ∧ ops = [] ∧ l = .reset) ∨
  (mnemonic = ['D', 'E', 'S', 'T', 'R', 'O', 'Y'] ∧ ops = [] ∧ l = .destroy) ∨
  (mnemonic = ['C', 'O', 'N', 'S', 'T', 'R', 'U', 'C', 'T'] ∧
    ∃ res baud delay bidir, ops = [res, baud, delay, bidir] ∧ l = .construct res baud delay bidir) ∨
  (mnemonic = ['B', 'U', 'I', 'L', 'D', '_', 'F', 'R', 'A', 'M', 'E'] ∧
    ((∃ thr tlm bidir, ops = [thr, tlm, bidir] ∧ l = .buildFrame thr tlm bidir) ∨
      ∃ thr tlm, ops = [thr, tlm] ∧ l = .buildFrame thr tlm 0))

/-- `Complete` stands in the flags the host reads after the command. -/
def reportsComplete (s : State) : Prop := s.hostReads.flags.map (fun f => f.getLsbD 0) = some true

end Sys2Proof.Claim

/-! ### Encodings -/

/-- 30_encoding.md R72 to R75, R79: no bit of a command's encoding is dropped. -/
def Obligations.DecodeOfEncodeGivesTheInstruction : Prop :=
  ∀ i : Instr, i.wellFormed = true → decode (encode i) = .command i

/-- 30_encoding.md R70, R77, R79: each command word has one meaning, and its unused bits are zero. -/
def Obligations.EncodeOfDecodeGivesTheWord : Prop :=
  ∀ (cw : BitVec 32) (i : Instr), decode cw = .command i → encode i = cw

/-- 95_test_vectors.md L2-DC: words written out from the encodings. -/
def Obligations.SampleWordsDecode : Prop :=
  decode 0xFFFF0010#32 = .command (.encode 65535#16 true) ∧ decode 0x00000001#32 = .command .reset
    ∧ decode 0x00000002#32 = .command .destroy ∧ decode 0x00000063#32 = .command (.construct true)
    ∧ decode 0x00000003#32 = .command .constructNull ∧ decode 0x04160024#32 = .command (.buildFrame 1046#16 false true)
    ∧ decode 0x00000023#32 = .reservedEncoding

/-- 30_encoding.md R77: exactly the reserved words are refused, and a refused command changes no register but `REFUSED` and emits
nothing. The port and the list of issued commands are the model's inputs (log 1). -/
def Obligations.ReservedWordsAreRefused : Prop :=
  ∀ (s : State) (c : Command) (rest : List Command), s.fault = [] → s.pending = c :: rest →
    (decode c.cw = .reservedEncoding ↔ Claim.Reserved c.cw) ∧
    (Claim.Reserved c.cw →
      step s = .next (Claim.refusedFor .reservedEncoding { s with cmd := c, free := c.free, pending := rest }))

/-- 30_encoding.md R84. -/
def Obligations.FlagSetEncoding : Prop :=
  FlagSet.encode ⟨false, false⟩ = 0b00#2 ∧ FlagSet.encode ⟨true, false⟩ = 0b01#2 ∧ FlagSet.encode ⟨false, true⟩ = 0b10#2
    ∧ FlagSet.encode ⟨true, true⟩ = 0b11#2
    ∧ ∀ s : FlagSet, s.encode.getLsbD 0 = s.complete ∧ s.encode.getLsbD 1 = s.bufferFull

/-- 30_encoding.md R80, R81: a line in the ranges of R80 assembles to a word of its command, each field of the word is the number written, and
CONSTRUCT's operands and the channel are carried unchanged; a mnemonic with its operands is a line exactly in the forms of R80 and the
two pseudo-instructions of R81. -/
def Obligations.AssembledLineKeepsItsOperands : Prop :=
  (∀ (chan : Chan) (l : AsmLine), l.wellFormed = true →
    decode (commandOf chan l).cw = .command (instrOf l) ∧ (commandOf chan l).chan = chan) ∧
  (∀ (chan : Chan) (thr tlm : Nat), (AsmLine.encode thr tlm).wellFormed = true →
    let cw := (commandOf chan (.encode thr tlm)).cw
    decode cw = .command (.encode (thrField cw) (tlmField cw)) ∧ (thrField cw).toNat = thr ∧ (tlmField cw).toNat = tlm) ∧
  (∀ (chan : Chan) (thr tlm bidir : Nat), (AsmLine.buildFrame thr tlm bidir).wellFormed = true →
    let cw := (commandOf chan (.buildFrame thr tlm bidir)).cw
    decode cw = .command (.buildFrame (thrField cw) (tlmField cw) (bidirField cw)) ∧ (thrField cw).toNat = thr ∧
      (tlmField cw).toNat = tlm ∧ (bidirField cw).toNat = bidir) ∧
  (∀ (chan : Chan) (res baud delay bidir : Nat), (AsmLine.construct res baud delay bidir).wellFormed = true →
    let c := commandOf chan (.construct res baud delay bidir)
    decode c.cw = .command (.construct (bidirField c.cw)) ∧ (bidirField c.cw).toNat = bidir ∧ c.res.toNat = res ∧
      c.baud.toNat = baud ∧ c.delay.toNat = delay) ∧
  (∀ chan : Chan, (commandOf chan .reset).cw = 0x00000001#32 ∧ (commandOf chan .destroy).cw = 0x00000002#32 ∧
    (commandOf chan .constructNull).cw = 0x00000003#32) ∧
  (∀ (mnemonic : List Char) (ops : List Nat) (l : AsmLine), lineOf mnemonic ops = some l ↔ Claim.LineForm mnemonic ops l) ∧
  parseCode "CONSTRUCT null".toList = some .constructNull

/-! ### The step -/

/-- 30_encoding.md R70 and 20_memory.md R58: a step executes the host's next command. `accept` in the model's own names: the command stands in the port with its
free-space draw (log 1, log 9). -/
def Obligations.StepExecutesTheDecodedCommand : Prop :=
  ∀ (s : State) (c : Command) (rest : List Command) (i : Instr), s.fault = [] → s.pending = c :: rest → i.wellFormed = true →
    decode c.cw = .command i → step s = exec i { s with cmd := c, free := c.free, pending := rest }

/-- 60_exceptions.md R236, R247: after a fault the block takes no command; "Between commands it is idle and keeps all of its state"; and no
command blocks or waits, so every command ends in its step. That a step of the faulted block answers its recorded fault is the model's choice (log 4). -/
def Obligations.FaultedIdleAndRunningSteps : Prop :=
  (∀ (s : State) (f : Fault) (fs : List Fault), s.fault = f :: fs → step s = .fault f) ∧
  (∀ s : State, s.fault = [] → s.pending = [] → step s = .next s) ∧
  (∀ s : State, s.fault = [] → ∃ t, step s = .next t ∧ t.pending = s.pending.tail)

/-- 10_state.md R39: the marks are clear at power-on, a fault and a refusal set them, and no command clears them. -/
def Obligations.MarksAreSetAndNeverCleared : Prop :=
  State.reset.fault = [] ∧ State.reset.refused = false ∧
  (∀ (f : Fault) (s : State), ∃ t, raiseFault f s = .next t ∧ f ∈ t.fault) ∧
  (∀ (r : Refusal) (s : State), ∃ t, refuse r s = .next t ∧ t.refused = true) ∧
  (∀ s t : State, step s = .next t → (∀ f ∈ s.fault, f ∈ t.fault) ∧ (s.refused = true → t.refused = true)) ∧
  (∀ (i : Instr) (s t : State), exec i s = .next t →
    (∀ f ∈ s.fault, f ∈ t.fault) ∧ (s.refused = true → t.refused = true))

/-- 70_reset_and_hazards.md R260: the power-on state. -/
def Obligations.PowerOnState : Prop :=
  State.reset.inst = .absent ∧ State.reset.fault = [] ∧ State.reset.refused = false
    ∧ State.reset.cfg = ⟨none, none, none, none⟩ ∧ State.reset.tim = ⟨none, none, none, none, none, none, none⟩
    ∧ State.reset.sym = ⟨none, none, none⟩ ∧ State.reset.phase = none ∧ State.reset.frameReg = none
    ∧ State.reset.sseLive = false ∧ State.reset.gapLive = false ∧ State.reset.ssePos = none ∧ State.reset.gapPos = none
    ∧ State.reset.res = ⟨none, none, none, none⟩ ∧ State.reset.bitOrder = .msbFirst

/-! ### The frame builder -/

/-- 40_frame_builder.md R100. -/
def Obligations.PackedValueLayout : Prop :=
  ∀ (thr : BitVec 16) (tlm : Bool),
    packFrame thr tlm = ((thr.extractLsb' 0 11).setWidth 16 <<< 5) ||| ((BitVec.ofBool tlm).setWidth 16 <<< 4) ∧
    (packFrame thr tlm).extractLsb' 5 11 = thr.extractLsb' 0 11 ∧ (packFrame thr tlm).getLsbD 4 = tlm ∧
    (packFrame thr tlm).extractLsb' 0 4 = 0#4

/-- 40_frame_builder.md R103, with 90_conflicts.md C1: the two orders of mask and shift agree. -/
def Obligations.CrcIsNibbleOfSeed : Prop :=
  ∀ seed : BitVec 16, crcOfSeed seed = ((seed &&& 0x00F0#16) >>> 4).setWidth 4 ∧ crcOfSeed seed = seed.extractLsb' 4 4 ∧
    crcOfSeed seed = ((seed >>> 4) &&& 0x000F#16).setWidth 4

/-- 40_frame_builder.md R106. -/
def Obligations.CrcClosedForm : Prop :=
  ∀ (thr : BitVec 16) (tlm bidir : Bool),
    (Claim.payload thr tlm).setWidth 16 = packFrame thr tlm >>> 4 ∧
    crcOf (packFrame thr tlm) bidir = Claim.crc (Claim.payload thr tlm) bidir ∧
    crcOf (packFrame thr tlm) bidir =
      (let p := Claim.payload thr tlm
       let x := ((p ^^^ (p >>> 4) ^^^ (p >>> 8)) &&& 0xF#12).setWidth 4
       if bidir then ~~~x else x)

/-- 40_frame_builder.md R105. -/
def Obligations.SwapExchangesTheBytes : Prop :=
  ∀ f : BitVec 16, swapBytes f = ((f &&& 0x00FF#16) <<< 8) ||| ((f &&& 0xFF00#16) >>> 8) ∧
    (swapBytes f).extractLsb' 8 8 = f.extractLsb' 0 8 ∧ (swapBytes f).extractLsb' 0 8 = f.extractLsb' 8 8

/-- 40_frame_builder.md R109: the byte-order round trip. -/
def Obligations.WireFrameRoundTrip : Prop :=
  ∀ (thr : BitVec 16) (tlm bidir : Bool),
    let f := Claim.unswap (wireFrame thr tlm bidir)
    f = frameValue thr tlm bidir ∧ f.extractLsb' 5 11 = thr.extractLsb' 0 11 ∧ f.getLsbD 4 = tlm ∧
    f.extractLsb' 0 4 = Claim.crc (f.extractLsb' 4 12) bidir ∧
    (f >>> 5).toNat = thr.toNat % 2048 ∧ (thr.toNat ≤ 2047 → (f >>> 5).toNat = thr.toNat)

/-- 40_frame_builder.md R107 with the layout of 30_encoding.md R82: BUILD_FRAME runs on every state and writes `RES_FRAME` and `RES_CODE` alone;
every other register and every output buffer is as before. -/
def Obligations.BuildFrameWritesTheWireFrame : Prop :=
  ∀ (thr : BitVec 16) (tlm bidir : Bool) (s : State),
    exec (.buildFrame thr tlm bidir) s =
      .next { s with res := { s.res with code := some 0#2, frame := some (Claim.wire thr tlm bidir) },
                     ended := .returned { count := false, flags := false, frame := true } }

/-! ### Bytes, bits and symbols -/

/-- 20_memory.md R52. -/
def Obligations.FrameBufferByteLanes : Prop :=
  ∀ w : BitVec 16, fbRead w 0 = w.extractLsb' 0 8 ∧ fbRead w 1 = w.extractLsb' 8 8

/-- 43_subencoders.md R203. -/
def Obligations.UnitBitsAreFrameBits : Prop :=
  ∀ (f : BitVec 16) (k : Nat), k < 16 →
    fbBit .msbFirst (swapBytes f) k = decide ((fbRead (swapBytes f) (k / 8) >>> (7 - k % 8)) &&& 1#8 = 1#8) ∧
    fbBit .msbFirst (swapBytes f) k = f.getLsbD (15 - k)

/-- 20_memory.md R53: the payload symbols of one frame carry `F[15], …, F[0]`. -/
def Obligations.PayloadIsSentMostSignificantFirst : Prop :=
  ∀ (thr : BitVec 16) (tlm bidir : Bool) (bit1 bit0 : Symbol),
    sseUnit .msbFirst bit1 bit0 (wireFrame thr tlm bidir) frameBytes = Claim.bitSymbols (Claim.frame thr tlm bidir) bit1 bit0

/-! ### Sub-encoders -/

/-- 43_subencoders.md R204, on the reference SSE and the reference GAP. -/
def Obligations.ReferenceAnswersReportAFlag : Prop :=
  ∀ (exact : Bool) (F pos : Nat) (unit : List Symbol) (a : Answer), pos < unit.length →
    (a = sseReference exact F pos unit ∨ a = gapReference exact F pos unit) →
    (a.flags.complete = true ∨ a.flags.bufferFull = true) ∧
    (a.flags.bufferFull = if exact then decide (F ≤ unit.length - pos) else decide (F < unit.length - pos)) ∧
    (unit.length - pos ≤ F → a.flags.complete = true) ∧
    (F < unit.length - pos → a.flags.complete = false ∧ a.flags.bufferFull = true) ∧
    (F = unit.length - pos → a.flags.complete = true ∧ a.flags.bufferFull = exact)

/-- 43_subencoders.md R208: the table of gap outcomes. -/
def Obligations.GapReferenceOutcomes : Prop :=
  ∀ (exact : Bool) (gap : Symbol),
    gapReference exact 0 0 [gap] = ⟨0, ⟨false, true⟩, [], false⟩ ∧
    gapReference exact 1 0 [gap] = ⟨1, ⟨true, exact⟩, [gap], false⟩ ∧
    ∀ F, 2 ≤ F → gapReference exact F 0 [gap] = ⟨1, ⟨true, false⟩, [gap], false⟩

/-- 43_subencoders.md R212, its first sentence: the reference collaborators meet every obligation of R201, and the model's check is
exactly those obligations. -/
def Obligations.ReferenceCollaboratorsMeetTheContract : Prop :=
  (∀ (F pos : Nat) (unit : List Symbol) (a : Answer), contractMet F pos unit a = true ↔ Claim.Contract F pos unit a) ∧
  ∀ (exact : Bool) (F pos : Nat) (unit : List Symbol), pos < unit.length →
    Claim.Contract F pos unit (sseReference exact F pos unit) ∧ Claim.Contract F pos unit (gapReference exact F pos unit)

/-! ### ENCODE -/

/-- 41_orchestrator.md R130, R143 and 43_subencoders.md R210: what an ENCODE in the frame phase does under the reference collaborators, from any position and with any free
space: it continues at the position, and the three cases of the space decide count, flags, phase and symbols. -/
def Obligations.EncodeEmitsWhatFits : Prop :=
  ∀ (thr : BitVec 16) (tlm bidir : Bool) (bit1 bit0 gap : Symbol) (pos : Fin 16) (s : State),
    Claim.AwaitsFrame s bidir bit1 bit0 pos → s.gapPos = some 0 → s.sym.gap = some gap → s.cmd.usual → s.out.wf →
    let bits := (Claim.bitSymbols (Claim.frame thr tlm bidir) bit1 bit0).drop pos.val
    let old := Memory.read s.cmd.chan s.out
    ∃ t, exec (.encode thr tlm) s = .next t ∧ t.fault = s.fault ∧ t.refused = s.refused ∧
      t.frameReg = some (Claim.wire thr tlm bidir) ∧ t.gapPos = some 0 ∧ t.hostReads.code = some 0#2 ∧
      (s.free < 16 - pos.val →
        t.hostReads.count = some (BitVec.ofNat 32 s.free) ∧ t.hostReads.flags = some 0b10#2 ∧
        t.phase = some .awaitingFrame ∧ t.ssePos.map Fin.val = some (pos.val + s.free) ∧
        Memory.read s.cmd.chan t.out = old ++ bits.take s.free) ∧
      (s.free = 16 - pos.val →
        t.hostReads.count = some (BitVec.ofNat 32 (16 - pos.val)) ∧ t.hostReads.flags = some 0b10#2 ∧
        t.phase = some .awaitingGap ∧ t.ssePos = some 0 ∧ Memory.read s.cmd.chan t.out = old ++ bits) ∧
      (16 - pos.val < s.free →
        t.hostReads.count = some (BitVec.ofNat 32 (17 - pos.val)) ∧
        t.hostReads.flags = some (if s.par.exactFillFull = true ∧ s.free = 17 - pos.val then 0b11#2 else 0b01#2) ∧
        t.phase = some .awaitingFrame ∧ t.ssePos = some 0 ∧ Memory.read s.cmd.chan t.out = old ++ bits ++ [gap])

/-- 41_orchestrator.md R135, R136: an ENCODE in the gap phase emits only the gap, under the reference GAP. -/
def Obligations.EncodeInGapPhaseEmitsTheGap : Prop :=
  ∀ (thr : BitVec 16) (tlm bidir : Bool) (gap : Symbol) (s : State),
    Claim.AwaitsGap s bidir gap → s.cmd.usual → s.out.wf →
    ∃ t, exec (.encode thr tlm) s = .next t ∧ t.fault = s.fault ∧ t.refused = s.refused ∧ t.ssePos = s.ssePos ∧
      t.gapPos = some 0 ∧ t.hostReads.code = some 0#2 ∧ t.frameReg = some (Claim.wire thr tlm bidir) ∧
      (s.free = 0 → t.hostReads.count = some 0#32 ∧ t.hostReads.flags = some 0b10#2 ∧ t.phase = some .awaitingGap ∧
        t.out = s.out) ∧
      (s.free = 1 → t.hostReads.flags = some (if s.par.exactFillFull then 0b11#2 else 0b01#2)) ∧
      (2 ≤ s.free → t.hostReads.flags = some 0b01#2) ∧
      (1 ≤ s.free → t.hostReads.count = some 1#32 ∧ t.phase = some .awaitingFrame ∧
        Memory.read s.cmd.chan t.out = Memory.read s.cmd.chan s.out ++ [gap])

/-- 41_orchestrator.md R133, R134, R137, for any collaborators that meet the contract: the rows of the frame-phase table, each as
the whole next state. -/
def Obligations.FramePhaseOutcomeTable : Prop :=
  ∀ (thr : BitVec 16) (tlm bidir : Bool) (bit1 bit0 : Symbol) (pos : Fin 16) (s : State) (a : Answer),
    Claim.AwaitsFrame s bidir bit1 bit0 pos →
    a = sseAnswer s pos.val (Claim.bitSymbols (Claim.frame thr tlm bidir) bit1 bit0) →
    Claim.Contract s.free pos.val (Claim.bitSymbols (Claim.frame thr tlm bidir) bit1 bit0) a →
    let u := Claim.afterSse thr tlm bidir pos a s
    (a.flags = ⟨false, true⟩ → exec (.encode thr tlm) s =
      .next ((u.setPhase .awaitingFrame).writeResults 0#2 (some (BitVec.ofNat 32 a.n)) (some 0b10#2) none)) ∧
    (a.flags = ⟨true, true⟩ → exec (.encode thr tlm) s =
      .next ((u.setPhase .awaitingGap).writeResults 0#2 (some (BitVec.ofNat 32 a.n)) (some 0b10#2) none)) ∧
    (a.flags = ⟨false, false⟩ → s.par.neitherPolicy = .stop → exec (.encode thr tlm) s =
      .next ((u.setPhase .awaitingFrame).writeResults 0#2 (some (BitVec.ofNat 32 a.n)) (some 0b00#2) none)) ∧
    (∀ (gap : Symbol) (g : Answer) (p : Phase), s.gapPos = some 0 → s.sym.gap = some gap →
      (a.flags = ⟨true, false⟩ ∧ p = .awaitingGap ∨
        a.flags = ⟨false, false⟩ ∧ s.par.neitherPolicy = .fallThrough ∧ p = .awaitingFrame) →
      g = gapAnswer u 0 [gap] → Claim.Contract (s.free - a.n) 0 [gap] g →
      exec (.encode thr tlm) s = .next (Claim.afterGap a.n p g (u.setPhase p)))

/-- 41_orchestrator.md R135, R136, for any GAP that meets the contract: the whole next state of an ENCODE in the gap phase. -/
def Obligations.GapPhaseOutcomeTable : Prop :=
  ∀ (thr : BitVec 16) (tlm bidir : Bool) (gap : Symbol) (s : State) (g : Answer),
    Claim.AwaitsGap s bidir gap → g = gapAnswer s 0 [gap] → Claim.Contract s.free 0 [gap] g →
    exec (.encode thr tlm) s =
      .next (Claim.afterGap 0 .awaitingGap g { s with frameReg := some (Claim.wire thr tlm bidir) })

/-- 43_subencoders.md R201, 60_exceptions.md R234: an answer that breaks an obligation is recorded in `FAULT` with the command word, the delegate and `(n, s)`: of
the SSE, of the GAP in a command dispatched in the gap phase, and of the GAP in a command whose frame phase went on to the gap phase. -/
def Obligations.BrokenContractIsRecorded : Prop :=
  (∀ (thr : BitVec 16) (tlm bidir : Bool) (bit1 bit0 : Symbol) (pos : Fin 16) (s : State) (a : Answer),
    Claim.AwaitsFrame s bidir bit1 bit0 pos →
    a = sseAnswer s pos.val (Claim.bitSymbols (Claim.frame thr tlm bidir) bit1 bit0) →
    ¬ Claim.Contract s.free pos.val (Claim.bitSymbols (Claim.frame thr tlm bidir) bit1 bit0) a →
    ∃ t, exec (.encode thr tlm) s = .next t ∧
      .collaboratorContractViolation s.cmd.cw .sse a.n a.flags ∈ t.fault ∧
      t.ended = .faulted (.collaboratorContractViolation s.cmd.cw .sse a.n a.flags)) ∧
  (∀ (thr : BitVec 16) (tlm bidir : Bool) (gap : Symbol) (s : State) (g : Answer),
    Claim.AwaitsGap s bidir gap → g = gapAnswer s 0 [gap] → ¬ Claim.Contract s.free 0 [gap] g →
    ∃ t, exec (.encode thr tlm) s = .next t ∧
      .collaboratorContractViolation s.cmd.cw .gap g.n g.flags ∈ t.fault ∧
      t.ended = .faulted (.collaboratorContractViolation s.cmd.cw .gap g.n g.flags)) ∧
  (∀ (thr : BitVec 16) (tlm bidir : Bool) (bit1 bit0 gap : Symbol) (pos : Fin 16) (s : State) (a g : Answer),
    Claim.AwaitsFrame s bidir bit1 bit0 pos → s.gapPos = some 0 → s.sym.gap = some gap →
    a = sseAnswer s pos.val (Claim.bitSymbols (Claim.frame thr tlm bidir) bit1 bit0) →
    Claim.Contract s.free pos.val (Claim.bitSymbols (Claim.frame thr tlm bidir) bit1 bit0) a →
    (a.flags = ⟨true, false⟩ ∨ a.flags = ⟨false, false⟩ ∧ s.par.neitherPolicy = .fallThrough) →
    g = gapAnswer (Claim.afterSse thr tlm bidir pos a s) 0 [gap] → ¬ Claim.Contract (s.free - a.n) 0 [gap] g →
    ∃ t, exec (.encode thr tlm) s = .next t ∧
      .collaboratorContractViolation s.cmd.cw .gap g.n g.flags ∈ t.fault ∧
      t.ended = .faulted (.collaboratorContractViolation s.cmd.cw .gap g.n g.flags))

/-- 41_orchestrator.md R131, 10_state.md R31: an ENCODE that does not stop at a check rebuilds the frame in both phases, and what `FRAME_REG` held before makes no
difference. -/
def Obligations.EncodeRebuildsTheFrame : Prop :=
  ∀ (thr : BitVec 16) (tlm bidir : Bool) (s t : State), s.inst = .live → s.cmd.shared = false → s.cfg.bidir = some bidir →
    exec (.encode thr tlm) s = .next t →
    t.frameReg = some (Claim.wire thr tlm bidir) ∧
    ∀ old : Option (BitVec 16), exec (.encode thr tlm) { s with frameReg := old } = .next t

/-- 41_orchestrator.md R135: in the gap phase the outcome does not depend on the throttle or the telemetry bit, `FRAME_REG` apart. -/
def Obligations.GapPhaseIgnoresTheInput : Prop :=
  ∀ (thr thr' : BitVec 16) (tlm tlm' bidir : Bool) (gap : Symbol) (s t : State),
    Claim.AwaitsGap s bidir gap → exec (.encode thr tlm) s = .next t →
    exec (.encode thr' tlm') s = .next { t with frameReg := some (Claim.wire thr' tlm' bidir) }

/-- 41_orchestrator.md R146: with free space an ENCODE emits at least one symbol, and with none it emits nothing and returns
`{BufferFull}`, under the reference collaborators. -/
def Obligations.EncodeMakesProgress : Prop :=
  ∀ (thr : BitVec 16) (tlm : Bool) (s : State), Inv s → Unmarked s → s.inst = .live → s.cmd.usual →
    ∃ t, exec (.encode thr tlm) s = .next t ∧ Unmarked t ∧
      (1 ≤ s.free → (Memory.read s.cmd.chan s.out).length < (Memory.read s.cmd.chan t.out).length) ∧
      (s.free = 0 → t.hostReads.count = some 0#32 ∧ t.hostReads.flags = some 0b10#2 ∧ t.out = s.out ∧ t.phase = s.phase ∧
        t.ssePos = s.ssePos)

/-- 41_orchestrator.md R145: whoever the collaborators are, an ENCODE that reports Complete leaves `AwaitingFrame`, and so does a
RESET from any state of a live block whose collaborators behave. -/
def Obligations.CompleteLeavesAwaitingFrame : Prop :=
  (∀ (thr : BitVec 16) (tlm : Bool) (s t : State), exec (.encode thr tlm) s = .next t → Claim.reportsComplete t →
    t.phase = some .awaitingFrame) ∧
  (∀ s : State, s.inst = .live → Claim.Quiet s.cmd.sse → Claim.Quiet s.cmd.gap →
    ∃ t, exec .reset s = .next t ∧ t.phase = some .awaitingFrame)

/-- 41_orchestrator.md R139: every move of `PHASE`. -/
def Obligations.PhaseMovesOnlyOnCompletion : Prop :=
  (∀ (thr : BitVec 16) (tlm bidir : Bool) (bit1 bit0 : Symbol) (pos : Fin 16) (s t : State),
    Claim.AwaitsFrame s bidir bit1 bit0 pos → exec (.encode thr tlm) s = .next t → t.phase = some .awaitingGap →
    (sseAnswer s pos.val (Claim.bitSymbols (Claim.frame thr tlm bidir) bit1 bit0)).flags.complete = true ∧
      t.ssePos = some 0) ∧
  (∀ (thr : BitVec 16) (tlm bidir : Bool) (gap : Symbol) (s t : State),
    Claim.AwaitsGap s bidir gap → exec (.encode thr tlm) s = .next t → t.phase = some .awaitingFrame →
    (gapAnswer s 0 [gap]).flags.complete = true) ∧
  (∀ (thr : BitVec 16) (tlm : Bool) (s t : State), exec (.encode thr tlm) s = .next t → t.phase ≠ s.phase →
    s.phase = some .awaitingFrame ∧ t.phase = some .awaitingGap ∨
      s.phase = some .awaitingGap ∧ t.phase = some .awaitingFrame) ∧
  (∀ (i : Instr) (s t : State), (∀ thr tlm, i ≠ .encode thr tlm) → exec i s = .next t → t.phase ≠ s.phase →
    i = .reset ∧ t.phase = some .awaitingFrame ∨
      (∃ b, i = .construct b) ∧ t.inst = .live ∧ t.phase = some .awaitingFrame ∨
      i = .destroy ∧ t.inst = .destroyed ∧ t.phase = none)

/-- The frame of ENCODE, whoever the collaborators are and however the command ends (10_state.md R22 to R28, R35, R42; 20_memory.md R55): the configuration, timing and
symbol registers, `INST`, the live bits, `RES_FRAME` and every other channel's output buffer are as before, and its own channel's
buffer only grows at its end. -/
def Obligations.EncodeFrame : Prop :=
  ∀ (thr : BitVec 16) (tlm : Bool) (s t : State), exec (.encode thr tlm) s = .next t →
    t.par = s.par ∧ t.inst = s.inst ∧ t.cfg = s.cfg ∧ t.tim = s.tim ∧ t.sym = s.sym ∧ t.bitOrder = s.bitOrder ∧
    t.sseLive = s.sseLive ∧ t.gapLive = s.gapLive ∧ t.res.frame = s.res.frame ∧ t.cmd = s.cmd ∧ t.pending = s.pending ∧
    (∀ c, c ≠ s.cmd.chan → Memory.read c t.out = Memory.read c s.out) ∧
    (s.out.wf → Memory.read s.cmd.chan s.out <+: Memory.read s.cmd.chan t.out)

/-- 60_exceptions.md R234, R238 (NoInstance) and 70_reset_and_hazards.md R268: without a live instance the three commands fault, record their command word and change nothing else. -/
def Obligations.CommandsWithoutInstanceFault : Prop :=
  ∀ (i : Instr) (s : State), ((∃ thr tlm, i = .encode thr tlm) ∨ i = .reset ∨ i = .destroy) → s.inst ≠ .live →
    s.fault = [] → exec i s = .next (Claim.faultedFor (.noInstance s.cmd.cw) s)

/-- 20_memory.md R65: an ENCODE on a shared output buffer is refused. That the check follows NoInstance and precedes every
register write is the model's choice (log 14). -/
def Obligations.SharedBufferIsRefused : Prop :=
  ∀ (thr : BitVec 16) (tlm : Bool) (s : State), s.inst = .live → s.cmd.shared = true →
    exec (.encode thr tlm) s = .next (Claim.refusedFor .sharedOutputBuffer s)

/-! ### RESET and DESTROY -/

/-- 41_orchestrator.md R140, 70_reset_and_hazards.md R263: the whole next state of RESET. -/
def Obligations.ResetRestoresTheInitialPhase : Prop :=
  ∀ s : State, s.inst = .live → Claim.Quiet s.cmd.sse → Claim.Quiet s.cmd.gap →
    exec .reset s =
      .next (Claim.returnedCode 0#2 { s with phase := some .awaitingFrame, ssePos := some 0, gapPos := some 0 })

/-- 41_orchestrator.md R141: the whole next state of DESTROY. -/
def Obligations.DestroyReleasesTheInstance : Prop :=
  ∀ s : State, s.inst = .live → Claim.Quiet s.cmd.sse → Claim.Quiet s.cmd.gap →
    exec .destroy s =
      .next (Claim.returnedCode 0#2
        { s with inst := .destroyed, cfg := ⟨none, none, none, none⟩, tim := ⟨none, none, none, none, none, none, none⟩,
                 sym := ⟨none, none, none⟩, phase := none, frameReg := none, sseLive := false, ssePos := none,
                 gapLive := false, gapPos := none })

/-- 60_exceptions.md R234: a collaborator whose reset or destroy misbehaves. What misbehaving is, is the model's reading (log 12). -/
def Obligations.MisbehavingResetOrDestroyFaults : Prop :=
  ∀ (i : Instr) (s : State) (a : Answer), (i = .reset ∨ i = .destroy) → s.inst = .live → (a.symbols ≠ [] ∨ a.stray = true) →
    (s.cmd.sse = some a → ∃ t, exec i s = .next t ∧
      .collaboratorContractViolation s.cmd.cw .sse a.n a.flags ∈ t.fault) ∧
    (Claim.Quiet s.cmd.sse → s.cmd.gap = some a → ∃ t, exec i s = .next t ∧
      .collaboratorContractViolation s.cmd.cw .gap a.n a.flags ∈ t.fault)

/-- 70_reset_and_hazards.md R263: "After RESET, the next ENCODE behaves exactly as the first ENCODE after CONSTRUCT with the same
configuration". -/
def Obligations.EncodeAfterResetIsLikeAfterConstruct : Prop :=
  ∀ (s r d u : State) (res baud delay : BitVec 32) (bidir : Bool), Inv s → s.fault = [] → s.inst = .live →
    s.cfg = ⟨some res, some baud, some delay, some bidir⟩ → s.cmd.usual →
    exec .reset s = .next r → exec .destroy s = .next d →
    exec (.construct bidir) { d with cmd := { Command.blank with res := res, baud := baud, delay := delay } } = .next u →
    u.inst = .live ∧
    ∀ (thr : BitVec 16) (tlm : Bool) (c : Command), c.shared = false →
      exec (.encode thr tlm) { r with cmd := c, free := c.free } = exec (.encode thr tlm) { u with cmd := c, free := c.free }

/-! ### CONSTRUCT -/

/-- 42_construction_timing.md R170 to R177: a successful CONSTRUCT, its whole next state. -/
def Obligations.ConstructInstallsTheConfiguration : Prop :=
  ∀ (bidir : Bool) (s : State), s.inst ≠ .live → s.cmd.res ≠ 0 → s.cmd.baud ≠ 0 →
    ¬ Claim.TooLong s.par s.cmd.res.toNat s.cmd.baud.toNat s.cmd.delay.toNat →
    s.cmd.a1 = true → s.cmd.a2 = true → s.cmd.a3 = true →
    exec (.construct bidir) s = .next (Claim.constructed bidir s)

/-- 42_construction_timing.md R171, R178: a configuration with a zero resolution or baud rate, or with a duration above `DUR_MAX`, is refused and
changes nothing. -/
def Obligations.ConfigurationNotAcceptedIsRefused : Prop :=
  ∀ (bidir : Bool) (s : State), s.inst ≠ .live →
    (s.cmd.res = 0 ∨ s.cmd.baud = 0 ∨ Claim.TooLong s.par s.cmd.res.toNat s.cmd.baud.toNat s.cmd.delay.toNat) →
    exec (.construct bidir) s = .next (Claim.refusedFor .configNotAdmitted s)

/-- 60_exceptions.md R232, 42_construction_timing.md R179: an allocation failure returns `OutOfMemory` and changes no register of the instance. -/
def Obligations.AllocationFailureIsOutOfMemory : Prop :=
  ∀ (bidir : Bool) (s : State), s.inst ≠ .live → s.cmd.res ≠ 0 → s.cmd.baud ≠ 0 →
    ¬ Claim.TooLong s.par s.cmd.res.toNat s.cmd.baud.toNat s.cmd.delay.toNat →
    (s.cmd.a1 = false ∨ s.cmd.a2 = false ∨ s.cmd.a3 = false) →
    exec (.construct bidir) s = .next (Claim.returnedCode 2#2 s)

/-- 60_exceptions.md R231: the null form returns `InvalidArgument` and changes nothing. -/
def Obligations.MissingConfigurationIsInvalidArgument : Prop :=
  ∀ s : State, s.inst ≠ .live → exec .constructNull s = .next (Claim.returnedCode 1#2 s)

/-- 60_exceptions.md R237: the first check that applies decides the outcome of a word with `op = 0x3`. -/
def Obligations.ConstructChecksInOrder : Prop :=
  ∀ (s : State) (c : Command) (rest : List Command), s.fault = [] → s.pending = c :: rest → c.cw.extractLsb' 0 4 = 3#4 →
    let u : State := { s with cmd := c, free := c.free, pending := rest }
    (Claim.Reserved c.cw → step s = .next (Claim.refusedFor .reservedEncoding u)) ∧
    (¬ Claim.Reserved c.cw → s.inst = .live → step s = .next (Claim.faultedFor (.alreadyLive c.cw) u)) ∧
    (¬ Claim.Reserved c.cw → s.inst ≠ .live → c.cw.getLsbD 6 = false → step s = .next (Claim.returnedCode 1#2 u)) ∧
    (¬ Claim.Reserved c.cw → s.inst ≠ .live → c.cw.getLsbD 6 = true →
      (c.res = 0 ∨ c.baud = 0 → step s = .next (Claim.refusedFor .configNotAdmitted u)) ∧
      (c.res ≠ 0 → c.baud ≠ 0 →
        (Claim.TooLong s.par c.res.toNat c.baud.toNat c.delay.toNat →
          step s = .next (Claim.refusedFor .configNotAdmitted u)) ∧
        (¬ Claim.TooLong s.par c.res.toNat c.baud.toNat c.delay.toNat →
          (c.a1 = false ∨ c.a2 = false ∨ c.a3 = false → step s = .next (Claim.returnedCode 2#2 u)) ∧
          (c.a1 = true → c.a2 = true → c.a3 = true → step s = .next (Claim.constructed (c.cw.getLsbD 5) u)))))

/-- 42_construction_timing.md R182: the identities of an accepted configuration; `0.7485` and `0.37425` are exact rationals here. -/
def Obligations.TimingIdentities : Prop :=
  ∀ res baud delay : Nat,
    let t := deriveTiming res baud delay
    t.t1h + t.t1l = t.period ∧ t.t0h + t.t0l = t.period ∧ t.t0h ≤ t.t1h ∧
    (t.t1h : Int) = ⌊(7485 / 10000 : ℚ) * (t.period : ℚ)⌋ ∧ (t.t0h : Int) = ⌊(37425 / 100000 : ℚ) * (t.period : ℚ)⌋ ∧
    2 * t.gapHalf ≤ t.gapTicks ∧ t.gapTicks ≤ 2 * t.gapHalf + 1

/-- 42_construction_timing.md R178: a gap too long for 32 bits is never accepted, for a duration field of at most 31 bits, so a
32-bit wrap of the product cannot be observed. -/
def Obligations.GapWrapIsNeverAccepted : Prop :=
  ∀ (p : Params) (res baud delay : Nat), p.durBits ≤ 31 → fitsDurations p (deriveTiming res baud delay) = true →
    (deriveTiming res baud delay).gapTicks < 2 ^ 32

/-- 70_reset_and_hazards.md R269: where zero durations come from. -/
def Obligations.ZeroDurationSymbols : Prop :=
  ∀ res baud delay : Nat,
    let t := deriveTiming res baud delay
    (delay = 0 → (symbolRegsOf t).gap = some ⟨false, 0, false, 0⟩) ∧ (res < 1000000 → t.gapHalf = 0) ∧
    (t.period ≤ 2 → t.t0h = 0) ∧ (t.period ≤ 1 → t.t1h = 0) ∧
    (res < baud → t.t1h = 0 ∧ t.t1l = 0 ∧ t.t0h = 0 ∧ t.t0l = 0)

/-! ### Rules over all commands -/

/-- 70_reset_and_hazards.md R267, 20_memory.md R63: while an instance stays live, no command changes its configuration, timing or symbols. -/
def Obligations.ConfigurationIsFixedWhileLive : Prop :=
  ∀ (i : Instr) (s t : State), s.inst = .live → exec i s = .next t → t.inst = .live →
    t.cfg = s.cfg ∧ t.tim = s.tim ∧ t.sym = s.sym

/-- 10_state.md R21: only a CONSTRUCT that succeeds and a DESTROY write `INST`. -/
def Obligations.OnlyConstructAndDestroyWriteInst : Prop :=
  State.reset.inst = .absent ∧
  ∀ (i : Instr) (s t : State), exec i s = .next t → t.inst ≠ s.inst →
    (∃ b, i = .construct b) ∧ t.inst = .live ∧ t.res.code = some 0#2 ∨ i = .destroy ∧ s.inst = .live ∧ t.inst = .destroyed

/-- 30_encoding.md R85: only CONSTRUCT produces the codes 1 and 2, code 3 is never produced, and every other command that returns
leaves code 0. -/
def Obligations.ResultCodes : Prop :=
  ∀ (i : Instr) (s t : State) (m : ResultMask), exec i s = .next t → t.ended = .returned m →
    (t.res.code = some 0#2 ∨ t.res.code = some 1#2 ∨ t.res.code = some 2#2) ∧
    ((∀ b, i ≠ .construct b) → i ≠ .constructNull → t.res.code = some 0#2)

/-- 10_state.md R35: a command writes only the result registers its rule names, and the host reads no value in the others. -/
def Obligations.HostReadsWhatTheCommandWrote : Prop :=
  ∀ (i : Instr) (s t : State) (m : ResultMask), exec i s = .next t → t.ended = .returned m →
    t.hostReads.code = t.res.code ∧
    match i with
    | .encode _ _ =>
      t.hostReads.count.isSome ∧ t.hostReads.count = t.res.count ∧ t.hostReads.flags.isSome ∧
        t.hostReads.flags = t.res.flags ∧ t.hostReads.frame = none ∧ t.res.frame = s.res.frame
    | .buildFrame _ _ _ =>
      t.hostReads.frame.isSome ∧ t.hostReads.frame = t.res.frame ∧ t.hostReads.count = none ∧ t.hostReads.flags = none ∧
        t.res.count = s.res.count ∧ t.res.flags = s.res.flags
    | _ =>
      t.hostReads.count = none ∧ t.hostReads.flags = none ∧ t.hostReads.frame = none ∧ t.res.count = s.res.count ∧
        t.res.flags = s.res.flags ∧ t.res.frame = s.res.frame

/-- 00_scope.md R11, 20_memory.md R55: only ENCODE appends. The frame of the commands that store nothing: every output buffer, the free space,
the parameters and the inputs are as before, with collaborators that behave. -/
def Obligations.OtherCommandsStoreNothing : Prop :=
  ∀ (i : Instr) (s t : State), (∀ thr tlm, i ≠ .encode thr tlm) → Claim.Quiet s.cmd.sse → Claim.Quiet s.cmd.gap →
    exec i s = .next t →
    t.out = s.out ∧ t.free = s.free ∧ t.par = s.par ∧ t.bitOrder = s.bitOrder ∧ t.cmd = s.cmd ∧ t.pending = s.pending

/-- 20_memory.md R55, 10_state.md R41: the block "only appends to it and never reads previously written symbols": with other contents in the
output buffers a command ends the same, and appends the same symbols. -/
def Obligations.OutputBuffersAreNeverRead : Prop :=
  ∀ (i : Instr) (s t : State) (m : Memory), s.out.wf → m.wf → exec i s = .next t →
    ∃ m' : Memory, exec i { s with out := m } = .next { t with out := m' } ∧
      ∀ c, ∃ ys, Memory.read c t.out = Memory.read c s.out ++ ys ∧ Memory.read c m' = Memory.read c m ++ ys

/-! ### Invariants -/

/-- The power-on state meets the invariant. -/
def Obligations.ResetStateMeetsTheInvariant : Prop := Inv State.reset

/-- Every step keeps the invariant: registers hold values exactly while live and those values follow from the configuration, the
SSE stands at 0 while the gap is awaited, the result registers stay in range, at most one fault and no unwritten read is recorded,
and the output buffers keep their canonical form (10_state.md R40; 42_construction_timing.md R182; 43_subencoders.md R211;
30_encoding.md R85; 41_orchestrator.md R137; 60_exceptions.md R234, R236). -/
def Obligations.StepKeepsTheInvariant : Prop := ∀ s t : State, Inv s → step s = .next t → Inv t

/-! ### Sequences of commands -/

/-- 41_orchestrator.md R144: resumability. ENCODEs of one throttle and telemetry bit, each with free space, until the first that
reports Complete: the symbols, the total and the final state are those of one ENCODE with free space for all. -/
def Obligations.SplitFrameEqualsWholeFrame : Prop :=
  ∀ (thr : BitVec 16) (tlm : Bool) (chan : Chan) (fs : List Nat) (F m : Nat) (s t : State), Inv s → s.fault = [] →
    s.inst = .live → s.phase = some .awaitingFrame → s.ssePos = some 0 → (∀ f ∈ fs, 1 ≤ f) → 17 ≤ F → fs ≠ [] →
    encodeSeries thr tlm chan fs s = some (m, t) → Claim.reportsComplete t →
    (∀ k m' t', 0 < k → k < fs.length → encodeSeries thr tlm chan (fs.take k) s = some (m', t') →
      ¬ Claim.reportsComplete t') →
    m = 17 ∧ t.phase = some .awaitingFrame ∧ t.ssePos = some 0 ∧
    ∃ u, encodeSeries thr tlm chan [F] s = some (17, u) ∧ u.phase = some .awaitingFrame ∧ u.ssePos = some 0 ∧ t.out = u.out

/-- 41_orchestrator.md R144, R146 and 70_reset_and_hazards.md R265: with free space at every ENCODE a frame is complete after at most 17 of them. -/
def Obligations.FrameCompletesWithinSeventeen : Prop :=
  ∀ (thr : BitVec 16) (tlm : Bool) (chan : Chan) (fs : List Nat) (s : State), Inv s → s.fault = [] → s.inst = .live →
    s.phase = some .awaitingFrame → s.ssePos = some 0 → (∀ f ∈ fs, 1 ≤ f) → 17 ≤ fs.length →
    ∃ k t, 0 < k ∧ k ≤ 17 ∧ encodeSeries thr tlm chan (fs.take k) s = some (17, t) ∧ Claim.reportsComplete t

/-- 70_reset_and_hazards.md R265: a buffer that is never drained. Any number of ENCODEs without free space emit nothing, return BufferFull and leave
the phase, the position and the buffers as they were. -/
def Obligations.FullBufferNeverProgresses : Prop :=
  ∀ (thr : BitVec 16) (tlm : Bool) (chan : Chan) (k : Nat) (s : State), Inv s → s.fault = [] → s.inst = .live →
    ∃ t, encodeSeries thr tlm chan (List.replicate k 0) s = some (0, t) ∧ t.phase = s.phase ∧ t.ssePos = s.ssePos ∧
      t.out = s.out ∧ t.fault = [] ∧ (0 < k → t.hostReads.flags = some 0b10#2)

/-- 70_reset_and_hazards.md R273: buffer sizing, from the start of a frame. -/
def Obligations.BufferSizing : Prop :=
  ∀ (thr : BitVec 16) (tlm : Bool) (chan : Chan) (F : Nat) (s : State), Inv s → s.fault = [] → s.inst = .live →
    s.phase = some .awaitingFrame → s.ssePos = some 0 →
    ∃ n t, encodeSeries thr tlm chan [F] s = some (n, t) ∧
      (17 ≤ F → n = 17 ∧ Claim.reportsComplete t) ∧
      (F = 16 → ¬ Claim.reportsComplete t ∧ t.phase = some .awaitingGap) ∧
      (F < 16 → ¬ Claim.reportsComplete t ∧ t.phase = some .awaitingFrame ∧ ∀ G, ∃ m u,
        encodeSeries thr tlm chan [G] t = some (m, u) ∧ m + n ≤ 17 ∧ (m + n = 17 ↔ 17 - F ≤ G))

/-- 70_reset_and_hazards.md R264: the mixed frame. An ENCODE that is cut after `pos` symbols and resumed with another throttle or telemetry bit sends the first
symbols of the old frame and the rest of the new one, and does not fault. -/
def Obligations.ChangedInputMixesTwoFrames : Prop :=
  ∀ (thr thr' : BitVec 16) (tlm tlm' bidir : Bool) (bit1 bit0 gap : Symbol) (c : Command) (s t : State),
    Claim.AwaitsFrame s bidir bit1 bit0 0 → s.gapPos = some 0 → s.sym.gap = some gap → s.cmd.usual → s.out.wf →
    s.fault = [] → s.free < 16 → c.usual → c.chan = s.cmd.chan → 17 - s.free ≤ c.free →
    exec (.encode thr tlm) s = .next t →
    ∃ u, exec (.encode thr' tlm') { t with cmd := c, free := c.free } = .next u ∧ u.fault = [] ∧
      Memory.read c.chan u.out = Memory.read c.chan s.out
        ++ (Claim.bitSymbols (Claim.frame thr tlm bidir) bit1 bit0).take s.free
        ++ (Claim.bitSymbols (Claim.frame thr' tlm' bidir) bit1 bit0).drop s.free ++ [gap]
end

