-- ==== Sys2Proof/Laws/Encoding.lean ====
section
/-! SUPPORT. Every bit of a command word as `commandWord` lays it out, and the fields read back from it (30_encoding.md R70). -/

namespace Sys2Proof

/-- The bits of a command word. -/
theorem getLsbD_commandWord (thr : BitVec 16) (cfgp bidir tlm : Bool) (op : BitVec 4) (i : Nat) :
    (commandWord thr cfgp bidir tlm op).getLsbD i =
      if i < 4 then op.getLsbD i else if i = 4 then tlm else if i = 5 then bidir else if i = 6 then cfgp
      else if i < 16 then false else thr.getLsbD (i - 16) := by
  have h : ∀ (b : Bool) (k : Nat), k ≠ 0 → (bit b).getLsbD k = false := fun b k hk => by
    simp [bit, BitVec.getLsbD_ofBool, hk]
  have h₀ : ∀ b : Bool, (bit b).getLsbD 0 = b := fun b => by simp [bit]
  unfold commandWord
  change (thr ++ 0b000000000#9 ++ bit cfgp ++ bit bidir ++ bit tlm ++ op : BitVec (16 + 9 + 1 + 1 + 1 + 4)).getLsbD i = _
  simp only [BitVec.getLsbD_append]
  split
  · rfl
  split
  · rw [if_pos (by omega), show i - 4 = 0 by omega, h₀]
  split
  · rw [if_neg (by omega), if_pos (by omega), show i - 4 - 1 = 0 by omega, h₀]
  split
  · rw [if_neg (by omega), if_neg (by omega), if_pos (by omega), show i - 4 - 1 - 1 = 0 by omega, h₀]
  split
  · rw [if_neg (by omega), if_neg (by omega), if_neg (by omega), if_pos (by omega)]; simp
  · rw [if_neg (by omega), if_neg (by omega), if_neg (by omega), if_neg (by omega)]; congr 1

theorem opField_commandWord (thr : BitVec 16) (cfgp bidir tlm : Bool) (op : BitVec 4) :
    opField (commandWord thr cfgp bidir tlm op) = op := by
  apply BitVec.eq_of_getLsbD_eq
  intro i hi
  simp [opField, getLsbD_commandWord, hi]

theorem tlmField_commandWord (thr : BitVec 16) (cfgp bidir tlm : Bool) (op : BitVec 4) :
    tlmField (commandWord thr cfgp bidir tlm op) = tlm := by
  rw [tlmField, getLsbD_commandWord]; rfl

theorem bidirField_commandWord (thr : BitVec 16) (cfgp bidir tlm : Bool) (op : BitVec 4) :
    bidirField (commandWord thr cfgp bidir tlm op) = bidir := by
  rw [bidirField, getLsbD_commandWord]; rfl

theorem cfgpField_commandWord (thr : BitVec 16) (cfgp bidir tlm : Bool) (op : BitVec 4) :
    cfgpField (commandWord thr cfgp bidir tlm op) = cfgp := by
  rw [cfgpField, getLsbD_commandWord]; rfl

theorem thrField_commandWord (thr : BitVec 16) (cfgp bidir tlm : Bool) (op : BitVec 4) :
    thrField (commandWord thr cfgp bidir tlm op) = thr := by
  apply BitVec.eq_of_getLsbD_eq
  intro i hi
  rw [thrField, BitVec.getLsbD_extractLsb', getLsbD_commandWord]
  simp only [hi, decide_true, Bool.true_and]
  repeat rw [if_neg (by omega)]
  congr 1
  omega

end Sys2Proof
end

