-- ==== Sys2Proof/Laws/State.lean ====
section
/-! SUPPORT. One lemma for each field of the state under each named update, so that no later proof unfolds a record update. -/

namespace Sys2Proof.Machine

/-! ### append -/

@[simp] theorem State.append_par (c : Chan) (y : Symbol) (s : State) : (s.append c y).par = s.par := rfl
@[simp] theorem State.append_inst (c : Chan) (y : Symbol) (s : State) : (s.append c y).inst = s.inst := rfl
@[simp] theorem State.append_cfg (c : Chan) (y : Symbol) (s : State) : (s.append c y).cfg = s.cfg := rfl
@[simp] theorem State.append_tim (c : Chan) (y : Symbol) (s : State) : (s.append c y).tim = s.tim := rfl
@[simp] theorem State.append_sym (c : Chan) (y : Symbol) (s : State) : (s.append c y).sym = s.sym := rfl
@[simp] theorem State.append_bitOrder (c : Chan) (y : Symbol) (s : State) : (s.append c y).bitOrder = s.bitOrder := rfl
@[simp] theorem State.append_phase (c : Chan) (y : Symbol) (s : State) : (s.append c y).phase = s.phase := rfl
@[simp] theorem State.append_frameReg (c : Chan) (y : Symbol) (s : State) : (s.append c y).frameReg = s.frameReg := rfl
@[simp] theorem State.append_sseLive (c : Chan) (y : Symbol) (s : State) : (s.append c y).sseLive = s.sseLive := rfl
@[simp] theorem State.append_ssePos (c : Chan) (y : Symbol) (s : State) : (s.append c y).ssePos = s.ssePos := rfl
@[simp] theorem State.append_gapLive (c : Chan) (y : Symbol) (s : State) : (s.append c y).gapLive = s.gapLive := rfl
@[simp] theorem State.append_gapPos (c : Chan) (y : Symbol) (s : State) : (s.append c y).gapPos = s.gapPos := rfl
@[simp] theorem State.append_res (c : Chan) (y : Symbol) (s : State) : (s.append c y).res = s.res := rfl
@[simp] theorem State.append_fault (c : Chan) (y : Symbol) (s : State) : (s.append c y).fault = s.fault := rfl
@[simp] theorem State.append_refused (c : Chan) (y : Symbol) (s : State) : (s.append c y).refused = s.refused := rfl
@[simp] theorem State.append_ended (c : Chan) (y : Symbol) (s : State) : (s.append c y).ended = s.ended := rfl
@[simp] theorem State.append_out (c : Chan) (y : Symbol) (s : State) : (s.append c y).out = s.out.append c y := rfl
@[simp] theorem State.append_free (c : Chan) (y : Symbol) (s : State) : (s.append c y).free = s.free - 1 := rfl
@[simp] theorem State.append_cmd (c : Chan) (y : Symbol) (s : State) : (s.append c y).cmd = s.cmd := rfl
@[simp] theorem State.append_pending (c : Chan) (y : Symbol) (s : State) : (s.append c y).pending = s.pending := rfl

/-! ### writeFrame -/

@[simp] theorem State.writeFrame_par (w : Half) (s : State) : (s.writeFrame w).par = s.par := rfl
@[simp] theorem State.writeFrame_inst (w : Half) (s : State) : (s.writeFrame w).inst = s.inst := rfl
@[simp] theorem State.writeFrame_cfg (w : Half) (s : State) : (s.writeFrame w).cfg = s.cfg := rfl
@[simp] theorem State.writeFrame_tim (w : Half) (s : State) : (s.writeFrame w).tim = s.tim := rfl
@[simp] theorem State.writeFrame_sym (w : Half) (s : State) : (s.writeFrame w).sym = s.sym := rfl
@[simp] theorem State.writeFrame_bitOrder (w : Half) (s : State) : (s.writeFrame w).bitOrder = s.bitOrder := rfl
@[simp] theorem State.writeFrame_phase (w : Half) (s : State) : (s.writeFrame w).phase = s.phase := rfl
@[simp] theorem State.writeFrame_frameReg (w : Half) (s : State) : (s.writeFrame w).frameReg = some w := rfl
@[simp] theorem State.writeFrame_sseLive (w : Half) (s : State) : (s.writeFrame w).sseLive = s.sseLive := rfl
@[simp] theorem State.writeFrame_ssePos (w : Half) (s : State) : (s.writeFrame w).ssePos = s.ssePos := rfl
@[simp] theorem State.writeFrame_gapLive (w : Half) (s : State) : (s.writeFrame w).gapLive = s.gapLive := rfl
@[simp] theorem State.writeFrame_gapPos (w : Half) (s : State) : (s.writeFrame w).gapPos = s.gapPos := rfl
@[simp] theorem State.writeFrame_res (w : Half) (s : State) : (s.writeFrame w).res = s.res := rfl
@[simp] theorem State.writeFrame_fault (w : Half) (s : State) : (s.writeFrame w).fault = s.fault := rfl
@[simp] theorem State.writeFrame_refused (w : Half) (s : State) : (s.writeFrame w).refused = s.refused := rfl
@[simp] theorem State.writeFrame_ended (w : Half) (s : State) : (s.writeFrame w).ended = s.ended := rfl
@[simp] theorem State.writeFrame_out (w : Half) (s : State) : (s.writeFrame w).out = s.out := rfl
@[simp] theorem State.writeFrame_free (w : Half) (s : State) : (s.writeFrame w).free = s.free := rfl
@[simp] theorem State.writeFrame_cmd (w : Half) (s : State) : (s.writeFrame w).cmd = s.cmd := rfl
@[simp] theorem State.writeFrame_pending (w : Half) (s : State) : (s.writeFrame w).pending = s.pending := rfl

/-! ### setPhase -/

@[simp] theorem State.setPhase_par (p : Phase) (s : State) : (s.setPhase p).par = s.par := rfl
@[simp] theorem State.setPhase_inst (p : Phase) (s : State) : (s.setPhase p).inst = s.inst := rfl
@[simp] theorem State.setPhase_cfg (p : Phase) (s : State) : (s.setPhase p).cfg = s.cfg := rfl
@[simp] theorem State.setPhase_tim (p : Phase) (s : State) : (s.setPhase p).tim = s.tim := rfl
@[simp] theorem State.setPhase_sym (p : Phase) (s : State) : (s.setPhase p).sym = s.sym := rfl
@[simp] theorem State.setPhase_bitOrder (p : Phase) (s : State) : (s.setPhase p).bitOrder = s.bitOrder := rfl
@[simp] theorem State.setPhase_phase (p : Phase) (s : State) : (s.setPhase p).phase = some p := rfl
@[simp] theorem State.setPhase_frameReg (p : Phase) (s : State) : (s.setPhase p).frameReg = s.frameReg := rfl
@[simp] theorem State.setPhase_sseLive (p : Phase) (s : State) : (s.setPhase p).sseLive = s.sseLive := rfl
@[simp] theorem State.setPhase_ssePos (p : Phase) (s : State) : (s.setPhase p).ssePos = s.ssePos := rfl
@[simp] theorem State.setPhase_gapLive (p : Phase) (s : State) : (s.setPhase p).gapLive = s.gapLive := rfl
@[simp] theorem State.setPhase_gapPos (p : Phase) (s : State) : (s.setPhase p).gapPos = s.gapPos := rfl
@[simp] theorem State.setPhase_res (p : Phase) (s : State) : (s.setPhase p).res = s.res := rfl
@[simp] theorem State.setPhase_fault (p : Phase) (s : State) : (s.setPhase p).fault = s.fault := rfl
@[simp] theorem State.setPhase_refused (p : Phase) (s : State) : (s.setPhase p).refused = s.refused := rfl
@[simp] theorem State.setPhase_ended (p : Phase) (s : State) : (s.setPhase p).ended = s.ended := rfl
@[simp] theorem State.setPhase_out (p : Phase) (s : State) : (s.setPhase p).out = s.out := rfl
@[simp] theorem State.setPhase_free (p : Phase) (s : State) : (s.setPhase p).free = s.free := rfl
@[simp] theorem State.setPhase_cmd (p : Phase) (s : State) : (s.setPhase p).cmd = s.cmd := rfl
@[simp] theorem State.setPhase_pending (p : Phase) (s : State) : (s.setPhase p).pending = s.pending := rfl

/-! ### setSsePos -/

@[simp] theorem State.setSsePos_par (p : Fin 16) (s : State) : (s.setSsePos p).par = s.par := rfl
@[simp] theorem State.setSsePos_inst (p : Fin 16) (s : State) : (s.setSsePos p).inst = s.inst := rfl
@[simp] theorem State.setSsePos_cfg (p : Fin 16) (s : State) : (s.setSsePos p).cfg = s.cfg := rfl
@[simp] theorem State.setSsePos_tim (p : Fin 16) (s : State) : (s.setSsePos p).tim = s.tim := rfl
@[simp] theorem State.setSsePos_sym (p : Fin 16) (s : State) : (s.setSsePos p).sym = s.sym := rfl
@[simp] theorem State.setSsePos_bitOrder (p : Fin 16) (s : State) : (s.setSsePos p).bitOrder = s.bitOrder := rfl
@[simp] theorem State.setSsePos_phase (p : Fin 16) (s : State) : (s.setSsePos p).phase = s.phase := rfl
@[simp] theorem State.setSsePos_frameReg (p : Fin 16) (s : State) : (s.setSsePos p).frameReg = s.frameReg := rfl
@[simp] theorem State.setSsePos_sseLive (p : Fin 16) (s : State) : (s.setSsePos p).sseLive = s.sseLive := rfl
@[simp] theorem State.setSsePos_ssePos (p : Fin 16) (s : State) : (s.setSsePos p).ssePos = some p := rfl
@[simp] theorem State.setSsePos_gapLive (p : Fin 16) (s : State) : (s.setSsePos p).gapLive = s.gapLive := rfl
@[simp] theorem State.setSsePos_gapPos (p : Fin 16) (s : State) : (s.setSsePos p).gapPos = s.gapPos := rfl
@[simp] theorem State.setSsePos_res (p : Fin 16) (s : State) : (s.setSsePos p).res = s.res := rfl
@[simp] theorem State.setSsePos_fault (p : Fin 16) (s : State) : (s.setSsePos p).fault = s.fault := rfl
@[simp] theorem State.setSsePos_refused (p : Fin 16) (s : State) : (s.setSsePos p).refused = s.refused := rfl
@[simp] theorem State.setSsePos_ended (p : Fin 16) (s : State) : (s.setSsePos p).ended = s.ended := rfl
@[simp] theorem State.setSsePos_out (p : Fin 16) (s : State) : (s.setSsePos p).out = s.out := rfl
@[simp] theorem State.setSsePos_free (p : Fin 16) (s : State) : (s.setSsePos p).free = s.free := rfl
@[simp] theorem State.setSsePos_cmd (p : Fin 16) (s : State) : (s.setSsePos p).cmd = s.cmd := rfl
@[simp] theorem State.setSsePos_pending (p : Fin 16) (s : State) : (s.setSsePos p).pending = s.pending := rfl

/-! ### setGapPos -/

@[simp] theorem State.setGapPos_par (p : Fin 1) (s : State) : (s.setGapPos p).par = s.par := rfl
@[simp] theorem State.setGapPos_inst (p : Fin 1) (s : State) : (s.setGapPos p).inst = s.inst := rfl
@[simp] theorem State.setGapPos_cfg (p : Fin 1) (s : State) : (s.setGapPos p).cfg = s.cfg := rfl
@[simp] theorem State.setGapPos_tim (p : Fin 1) (s : State) : (s.setGapPos p).tim = s.tim := rfl
@[simp] theorem State.setGapPos_sym (p : Fin 1) (s : State) : (s.setGapPos p).sym = s.sym := rfl
@[simp] theorem State.setGapPos_bitOrder (p : Fin 1) (s : State) : (s.setGapPos p).bitOrder = s.bitOrder := rfl
@[simp] theorem State.setGapPos_phase (p : Fin 1) (s : State) : (s.setGapPos p).phase = s.phase := rfl
@[simp] theorem State.setGapPos_frameReg (p : Fin 1) (s : State) : (s.setGapPos p).frameReg = s.frameReg := rfl
@[simp] theorem State.setGapPos_sseLive (p : Fin 1) (s : State) : (s.setGapPos p).sseLive = s.sseLive := rfl
@[simp] theorem State.setGapPos_ssePos (p : Fin 1) (s : State) : (s.setGapPos p).ssePos = s.ssePos := rfl
@[simp] theorem State.setGapPos_gapLive (p : Fin 1) (s : State) : (s.setGapPos p).gapLive = s.gapLive := rfl
@[simp] theorem State.setGapPos_gapPos (p : Fin 1) (s : State) : (s.setGapPos p).gapPos = some p := rfl
@[simp] theorem State.setGapPos_res (p : Fin 1) (s : State) : (s.setGapPos p).res = s.res := rfl
@[simp] theorem State.setGapPos_fault (p : Fin 1) (s : State) : (s.setGapPos p).fault = s.fault := rfl
@[simp] theorem State.setGapPos_refused (p : Fin 1) (s : State) : (s.setGapPos p).refused = s.refused := rfl
@[simp] theorem State.setGapPos_ended (p : Fin 1) (s : State) : (s.setGapPos p).ended = s.ended := rfl
@[simp] theorem State.setGapPos_out (p : Fin 1) (s : State) : (s.setGapPos p).out = s.out := rfl
@[simp] theorem State.setGapPos_free (p : Fin 1) (s : State) : (s.setGapPos p).free = s.free := rfl
@[simp] theorem State.setGapPos_cmd (p : Fin 1) (s : State) : (s.setGapPos p).cmd = s.cmd := rfl
@[simp] theorem State.setGapPos_pending (p : Fin 1) (s : State) : (s.setGapPos p).pending = s.pending := rfl

/-! ### dropSse -/

@[simp] theorem State.dropSse_par (s : State) : (s.dropSse).par = s.par := rfl
@[simp] theorem State.dropSse_inst (s : State) : (s.dropSse).inst = s.inst := rfl
@[simp] theorem State.dropSse_cfg (s : State) : (s.dropSse).cfg = s.cfg := rfl
@[simp] theorem State.dropSse_tim (s : State) : (s.dropSse).tim = s.tim := rfl
@[simp] theorem State.dropSse_sym (s : State) : (s.dropSse).sym = s.sym := rfl
@[simp] theorem State.dropSse_bitOrder (s : State) : (s.dropSse).bitOrder = s.bitOrder := rfl
@[simp] theorem State.dropSse_phase (s : State) : (s.dropSse).phase = s.phase := rfl
@[simp] theorem State.dropSse_frameReg (s : State) : (s.dropSse).frameReg = s.frameReg := rfl
@[simp] theorem State.dropSse_sseLive (s : State) : (s.dropSse).sseLive = false := rfl
@[simp] theorem State.dropSse_ssePos (s : State) : (s.dropSse).ssePos = none := rfl
@[simp] theorem State.dropSse_gapLive (s : State) : (s.dropSse).gapLive = s.gapLive := rfl
@[simp] theorem State.dropSse_gapPos (s : State) : (s.dropSse).gapPos = s.gapPos := rfl
@[simp] theorem State.dropSse_res (s : State) : (s.dropSse).res = s.res := rfl
@[simp] theorem State.dropSse_fault (s : State) : (s.dropSse).fault = s.fault := rfl
@[simp] theorem State.dropSse_refused (s : State) : (s.dropSse).refused = s.refused := rfl
@[simp] theorem State.dropSse_ended (s : State) : (s.dropSse).ended = s.ended := rfl
@[simp] theorem State.dropSse_out (s : State) : (s.dropSse).out = s.out := rfl
@[simp] theorem State.dropSse_free (s : State) : (s.dropSse).free = s.free := rfl
@[simp] theorem State.dropSse_cmd (s : State) : (s.dropSse).cmd = s.cmd := rfl
@[simp] theorem State.dropSse_pending (s : State) : (s.dropSse).pending = s.pending := rfl

/-! ### dropGap -/

@[simp] theorem State.dropGap_par (s : State) : (s.dropGap).par = s.par := rfl
@[simp] theorem State.dropGap_inst (s : State) : (s.dropGap).inst = s.inst := rfl
@[simp] theorem State.dropGap_cfg (s : State) : (s.dropGap).cfg = s.cfg := rfl
@[simp] theorem State.dropGap_tim (s : State) : (s.dropGap).tim = s.tim := rfl
@[simp] theorem State.dropGap_sym (s : State) : (s.dropGap).sym = s.sym := rfl
@[simp] theorem State.dropGap_bitOrder (s : State) : (s.dropGap).bitOrder = s.bitOrder := rfl
@[simp] theorem State.dropGap_phase (s : State) : (s.dropGap).phase = s.phase := rfl
@[simp] theorem State.dropGap_frameReg (s : State) : (s.dropGap).frameReg = s.frameReg := rfl
@[simp] theorem State.dropGap_sseLive (s : State) : (s.dropGap).sseLive = s.sseLive := rfl
@[simp] theorem State.dropGap_ssePos (s : State) : (s.dropGap).ssePos = s.ssePos := rfl
@[simp] theorem State.dropGap_gapLive (s : State) : (s.dropGap).gapLive = false := rfl
@[simp] theorem State.dropGap_gapPos (s : State) : (s.dropGap).gapPos = none := rfl
@[simp] theorem State.dropGap_res (s : State) : (s.dropGap).res = s.res := rfl
@[simp] theorem State.dropGap_fault (s : State) : (s.dropGap).fault = s.fault := rfl
@[simp] theorem State.dropGap_refused (s : State) : (s.dropGap).refused = s.refused := rfl
@[simp] theorem State.dropGap_ended (s : State) : (s.dropGap).ended = s.ended := rfl
@[simp] theorem State.dropGap_out (s : State) : (s.dropGap).out = s.out := rfl
@[simp] theorem State.dropGap_free (s : State) : (s.dropGap).free = s.free := rfl
@[simp] theorem State.dropGap_cmd (s : State) : (s.dropGap).cmd = s.cmd := rfl
@[simp] theorem State.dropGap_pending (s : State) : (s.dropGap).pending = s.pending := rfl

/-! ### releaseStorage -/

@[simp] theorem State.releaseStorage_par (s : State) : (s.releaseStorage).par = s.par := rfl
@[simp] theorem State.releaseStorage_inst (s : State) : (s.releaseStorage).inst = .destroyed := rfl
@[simp] theorem State.releaseStorage_cfg (s : State) : (s.releaseStorage).cfg = CfgRegs.noValue := rfl
@[simp] theorem State.releaseStorage_tim (s : State) : (s.releaseStorage).tim = TimingRegs.noValue := rfl
@[simp] theorem State.releaseStorage_sym (s : State) : (s.releaseStorage).sym = SymbolRegs.noValue := rfl
@[simp] theorem State.releaseStorage_bitOrder (s : State) : (s.releaseStorage).bitOrder = s.bitOrder := rfl
@[simp] theorem State.releaseStorage_phase (s : State) : (s.releaseStorage).phase = none := rfl
@[simp] theorem State.releaseStorage_frameReg (s : State) : (s.releaseStorage).frameReg = none := rfl
@[simp] theorem State.releaseStorage_sseLive (s : State) : (s.releaseStorage).sseLive = s.sseLive := rfl
@[simp] theorem State.releaseStorage_ssePos (s : State) : (s.releaseStorage).ssePos = s.ssePos := rfl
@[simp] theorem State.releaseStorage_gapLive (s : State) : (s.releaseStorage).gapLive = s.gapLive := rfl
@[simp] theorem State.releaseStorage_gapPos (s : State) : (s.releaseStorage).gapPos = s.gapPos := rfl
@[simp] theorem State.releaseStorage_res (s : State) : (s.releaseStorage).res = s.res := rfl
@[simp] theorem State.releaseStorage_fault (s : State) : (s.releaseStorage).fault = s.fault := rfl
@[simp] theorem State.releaseStorage_refused (s : State) : (s.releaseStorage).refused = s.refused := rfl
@[simp] theorem State.releaseStorage_ended (s : State) : (s.releaseStorage).ended = s.ended := rfl
@[simp] theorem State.releaseStorage_out (s : State) : (s.releaseStorage).out = s.out := rfl
@[simp] theorem State.releaseStorage_free (s : State) : (s.releaseStorage).free = s.free := rfl
@[simp] theorem State.releaseStorage_cmd (s : State) : (s.releaseStorage).cmd = s.cmd := rfl
@[simp] theorem State.releaseStorage_pending (s : State) : (s.releaseStorage).pending = s.pending := rfl

/-! ### install -/

@[simp] theorem State.install_par (g : CfgRegs) (m : TimingRegs) (y : SymbolRegs) (s : State) : (s.install g m y).par = s.par := rfl
@[simp] theorem State.install_inst (g : CfgRegs) (m : TimingRegs) (y : SymbolRegs) (s : State) : (s.install g m y).inst = .live := rfl
@[simp] theorem State.install_cfg (g : CfgRegs) (m : TimingRegs) (y : SymbolRegs) (s : State) : (s.install g m y).cfg = g := rfl
@[simp] theorem State.install_tim (g : CfgRegs) (m : TimingRegs) (y : SymbolRegs) (s : State) : (s.install g m y).tim = m := rfl
@[simp] theorem State.install_sym (g : CfgRegs) (m : TimingRegs) (y : SymbolRegs) (s : State) : (s.install g m y).sym = y := rfl
@[simp] theorem State.install_bitOrder (g : CfgRegs) (m : TimingRegs) (y : SymbolRegs) (s : State) : (s.install g m y).bitOrder = s.bitOrder := rfl
@[simp] theorem State.install_phase (g : CfgRegs) (m : TimingRegs) (y : SymbolRegs) (s : State) : (s.install g m y).phase = some .awaitingFrame := rfl
@[simp] theorem State.install_frameReg (g : CfgRegs) (m : TimingRegs) (y : SymbolRegs) (s : State) : (s.install g m y).frameReg = none := rfl
@[simp] theorem State.install_sseLive (g : CfgRegs) (m : TimingRegs) (y : SymbolRegs) (s : State) : (s.install g m y).sseLive = true := rfl
@[simp] theorem State.install_ssePos (g : CfgRegs) (m : TimingRegs) (y : SymbolRegs) (s : State) : (s.install g m y).ssePos = some 0 := rfl
@[simp] theorem State.install_gapLive (g : CfgRegs) (m : TimingRegs) (y : SymbolRegs) (s : State) : (s.install g m y).gapLive = true := rfl
@[simp] theorem State.install_gapPos (g : CfgRegs) (m : TimingRegs) (y : SymbolRegs) (s : State) : (s.install g m y).gapPos = some 0 := rfl
@[simp] theorem State.install_res (g : CfgRegs) (m : TimingRegs) (y : SymbolRegs) (s : State) : (s.install g m y).res = s.res := rfl
@[simp] theorem State.install_fault (g : CfgRegs) (m : TimingRegs) (y : SymbolRegs) (s : State) : (s.install g m y).fault = s.fault := rfl
@[simp] theorem State.install_refused (g : CfgRegs) (m : TimingRegs) (y : SymbolRegs) (s : State) : (s.install g m y).refused = s.refused := rfl
@[simp] theorem State.install_ended (g : CfgRegs) (m : TimingRegs) (y : SymbolRegs) (s : State) : (s.install g m y).ended = s.ended := rfl
@[simp] theorem State.install_out (g : CfgRegs) (m : TimingRegs) (y : SymbolRegs) (s : State) : (s.install g m y).out = s.out := rfl
@[simp] theorem State.install_free (g : CfgRegs) (m : TimingRegs) (y : SymbolRegs) (s : State) : (s.install g m y).free = s.free := rfl
@[simp] theorem State.install_cmd (g : CfgRegs) (m : TimingRegs) (y : SymbolRegs) (s : State) : (s.install g m y).cmd = s.cmd := rfl
@[simp] theorem State.install_pending (g : CfgRegs) (m : TimingRegs) (y : SymbolRegs) (s : State) : (s.install g m y).pending = s.pending := rfl

/-! ### writeResults -/

@[simp] theorem State.writeResults_par (k : BitVec 2) (n : Option Word) (f : Option (BitVec 2)) (w : Option Half) (s : State) : (s.writeResults k n f w).par = s.par := rfl
@[simp] theorem State.writeResults_inst (k : BitVec 2) (n : Option Word) (f : Option (BitVec 2)) (w : Option Half) (s : State) : (s.writeResults k n f w).inst = s.inst := rfl
@[simp] theorem State.writeResults_cfg (k : BitVec 2) (n : Option Word) (f : Option (BitVec 2)) (w : Option Half) (s : State) : (s.writeResults k n f w).cfg = s.cfg := rfl
@[simp] theorem State.writeResults_tim (k : BitVec 2) (n : Option Word) (f : Option (BitVec 2)) (w : Option Half) (s : State) : (s.writeResults k n f w).tim = s.tim := rfl
@[simp] theorem State.writeResults_sym (k : BitVec 2) (n : Option Word) (f : Option (BitVec 2)) (w : Option Half) (s : State) : (s.writeResults k n f w).sym = s.sym := rfl
@[simp] theorem State.writeResults_bitOrder (k : BitVec 2) (n : Option Word) (f : Option (BitVec 2)) (w : Option Half) (s : State) : (s.writeResults k n f w).bitOrder = s.bitOrder := rfl
@[simp] theorem State.writeResults_phase (k : BitVec 2) (n : Option Word) (f : Option (BitVec 2)) (w : Option Half) (s : State) : (s.writeResults k n f w).phase = s.phase := rfl
@[simp] theorem State.writeResults_frameReg (k : BitVec 2) (n : Option Word) (f : Option (BitVec 2)) (w : Option Half) (s : State) : (s.writeResults k n f w).frameReg = s.frameReg := rfl
@[simp] theorem State.writeResults_sseLive (k : BitVec 2) (n : Option Word) (f : Option (BitVec 2)) (w : Option Half) (s : State) : (s.writeResults k n f w).sseLive = s.sseLive := rfl
@[simp] theorem State.writeResults_ssePos (k : BitVec 2) (n : Option Word) (f : Option (BitVec 2)) (w : Option Half) (s : State) : (s.writeResults k n f w).ssePos = s.ssePos := rfl
@[simp] theorem State.writeResults_gapLive (k : BitVec 2) (n : Option Word) (f : Option (BitVec 2)) (w : Option Half) (s : State) : (s.writeResults k n f w).gapLive = s.gapLive := rfl
@[simp] theorem State.writeResults_gapPos (k : BitVec 2) (n : Option Word) (f : Option (BitVec 2)) (w : Option Half) (s : State) : (s.writeResults k n f w).gapPos = s.gapPos := rfl
@[simp] theorem State.writeResults_res (k : BitVec 2) (n : Option Word) (f : Option (BitVec 2)) (w : Option Half) (s : State) :
    (s.writeResults k n f w).res = { code := some k, count := n.or s.res.count, flags := f.or s.res.flags, frame := w.or s.res.frame } := rfl
@[simp] theorem State.writeResults_fault (k : BitVec 2) (n : Option Word) (f : Option (BitVec 2)) (w : Option Half) (s : State) : (s.writeResults k n f w).fault = s.fault := rfl
@[simp] theorem State.writeResults_refused (k : BitVec 2) (n : Option Word) (f : Option (BitVec 2)) (w : Option Half) (s : State) : (s.writeResults k n f w).refused = s.refused := rfl
@[simp] theorem State.writeResults_ended (k : BitVec 2) (n : Option Word) (f : Option (BitVec 2)) (w : Option Half) (s : State) :
    (s.writeResults k n f w).ended = .returned { count := n.isSome, flags := f.isSome, frame := w.isSome } := rfl
@[simp] theorem State.writeResults_out (k : BitVec 2) (n : Option Word) (f : Option (BitVec 2)) (w : Option Half) (s : State) : (s.writeResults k n f w).out = s.out := rfl
@[simp] theorem State.writeResults_free (k : BitVec 2) (n : Option Word) (f : Option (BitVec 2)) (w : Option Half) (s : State) : (s.writeResults k n f w).free = s.free := rfl
@[simp] theorem State.writeResults_cmd (k : BitVec 2) (n : Option Word) (f : Option (BitVec 2)) (w : Option Half) (s : State) : (s.writeResults k n f w).cmd = s.cmd := rfl
@[simp] theorem State.writeResults_pending (k : BitVec 2) (n : Option Word) (f : Option (BitVec 2)) (w : Option Half) (s : State) : (s.writeResults k n f w).pending = s.pending := rfl

/-! ### addFault -/

@[simp] theorem State.addFault_par (f : Fault) (s : State) : (s.addFault f).par = s.par := rfl
@[simp] theorem State.addFault_inst (f : Fault) (s : State) : (s.addFault f).inst = s.inst := rfl
@[simp] theorem State.addFault_cfg (f : Fault) (s : State) : (s.addFault f).cfg = s.cfg := rfl
@[simp] theorem State.addFault_tim (f : Fault) (s : State) : (s.addFault f).tim = s.tim := rfl
@[simp] theorem State.addFault_sym (f : Fault) (s : State) : (s.addFault f).sym = s.sym := rfl
@[simp] theorem State.addFault_bitOrder (f : Fault) (s : State) : (s.addFault f).bitOrder = s.bitOrder := rfl
@[simp] theorem State.addFault_phase (f : Fault) (s : State) : (s.addFault f).phase = s.phase := rfl
@[simp] theorem State.addFault_frameReg (f : Fault) (s : State) : (s.addFault f).frameReg = s.frameReg := rfl
@[simp] theorem State.addFault_sseLive (f : Fault) (s : State) : (s.addFault f).sseLive = s.sseLive := rfl
@[simp] theorem State.addFault_ssePos (f : Fault) (s : State) : (s.addFault f).ssePos = s.ssePos := rfl
@[simp] theorem State.addFault_gapLive (f : Fault) (s : State) : (s.addFault f).gapLive = s.gapLive := rfl
@[simp] theorem State.addFault_gapPos (f : Fault) (s : State) : (s.addFault f).gapPos = s.gapPos := rfl
@[simp] theorem State.addFault_res (f : Fault) (s : State) : (s.addFault f).res = s.res := rfl
@[simp] theorem State.addFault_fault (f : Fault) (s : State) : (s.addFault f).fault = if f ∈ s.fault then s.fault else s.fault ++ [f] := rfl
@[simp] theorem State.addFault_refused (f : Fault) (s : State) : (s.addFault f).refused = s.refused := rfl
@[simp] theorem State.addFault_ended (f : Fault) (s : State) : (s.addFault f).ended = .faulted f := rfl
@[simp] theorem State.addFault_out (f : Fault) (s : State) : (s.addFault f).out = s.out := rfl
@[simp] theorem State.addFault_free (f : Fault) (s : State) : (s.addFault f).free = s.free := rfl
@[simp] theorem State.addFault_cmd (f : Fault) (s : State) : (s.addFault f).cmd = s.cmd := rfl
@[simp] theorem State.addFault_pending (f : Fault) (s : State) : (s.addFault f).pending = s.pending := rfl

/-! ### markRefused -/

@[simp] theorem State.markRefused_par (r : Refusal) (s : State) : (s.markRefused r).par = s.par := rfl
@[simp] theorem State.markRefused_inst (r : Refusal) (s : State) : (s.markRefused r).inst = s.inst := rfl
@[simp] theorem State.markRefused_cfg (r : Refusal) (s : State) : (s.markRefused r).cfg = s.cfg := rfl
@[simp] theorem State.markRefused_tim (r : Refusal) (s : State) : (s.markRefused r).tim = s.tim := rfl
@[simp] theorem State.markRefused_sym (r : Refusal) (s : State) : (s.markRefused r).sym = s.sym := rfl
@[simp] theorem State.markRefused_bitOrder (r : Refusal) (s : State) : (s.markRefused r).bitOrder = s.bitOrder := rfl
@[simp] theorem State.markRefused_phase (r : Refusal) (s : State) : (s.markRefused r).phase = s.phase := rfl
@[simp] theorem State.markRefused_frameReg (r : Refusal) (s : State) : (s.markRefused r).frameReg = s.frameReg := rfl
@[simp] theorem State.markRefused_sseLive (r : Refusal) (s : State) : (s.markRefused r).sseLive = s.sseLive := rfl
@[simp] theorem State.markRefused_ssePos (r : Refusal) (s : State) : (s.markRefused r).ssePos = s.ssePos := rfl
@[simp] theorem State.markRefused_gapLive (r : Refusal) (s : State) : (s.markRefused r).gapLive = s.gapLive := rfl
@[simp] theorem State.markRefused_gapPos (r : Refusal) (s : State) : (s.markRefused r).gapPos = s.gapPos := rfl
@[simp] theorem State.markRefused_res (r : Refusal) (s : State) : (s.markRefused r).res = s.res := rfl
@[simp] theorem State.markRefused_fault (r : Refusal) (s : State) : (s.markRefused r).fault = s.fault := rfl
@[simp] theorem State.markRefused_refused (r : Refusal) (s : State) : (s.markRefused r).refused = true := rfl
@[simp] theorem State.markRefused_ended (r : Refusal) (s : State) : (s.markRefused r).ended = .refused r := rfl
@[simp] theorem State.markRefused_out (r : Refusal) (s : State) : (s.markRefused r).out = s.out := rfl
@[simp] theorem State.markRefused_free (r : Refusal) (s : State) : (s.markRefused r).free = s.free := rfl
@[simp] theorem State.markRefused_cmd (r : Refusal) (s : State) : (s.markRefused r).cmd = s.cmd := rfl
@[simp] theorem State.markRefused_pending (r : Refusal) (s : State) : (s.markRefused r).pending = s.pending := rfl

/-! ### accept -/

@[simp] theorem State.accept_par (c : Command) (rest : List Command) (s : State) : (s.accept c rest).par = s.par := rfl
@[simp] theorem State.accept_inst (c : Command) (rest : List Command) (s : State) : (s.accept c rest).inst = s.inst := rfl
@[simp] theorem State.accept_cfg (c : Command) (rest : List Command) (s : State) : (s.accept c rest).cfg = s.cfg := rfl
@[simp] theorem State.accept_tim (c : Command) (rest : List Command) (s : State) : (s.accept c rest).tim = s.tim := rfl
@[simp] theorem State.accept_sym (c : Command) (rest : List Command) (s : State) : (s.accept c rest).sym = s.sym := rfl
@[simp] theorem State.accept_bitOrder (c : Command) (rest : List Command) (s : State) : (s.accept c rest).bitOrder = s.bitOrder := rfl
@[simp] theorem State.accept_phase (c : Command) (rest : List Command) (s : State) : (s.accept c rest).phase = s.phase := rfl
@[simp] theorem State.accept_frameReg (c : Command) (rest : List Command) (s : State) : (s.accept c rest).frameReg = s.frameReg := rfl
@[simp] theorem State.accept_sseLive (c : Command) (rest : List Command) (s : State) : (s.accept c rest).sseLive = s.sseLive := rfl
@[simp] theorem State.accept_ssePos (c : Command) (rest : List Command) (s : State) : (s.accept c rest).ssePos = s.ssePos := rfl
@[simp] theorem State.accept_gapLive (c : Command) (rest : List Command) (s : State) : (s.accept c rest).gapLive = s.gapLive := rfl
@[simp] theorem State.accept_gapPos (c : Command) (rest : List Command) (s : State) : (s.accept c rest).gapPos = s.gapPos := rfl
@[simp] theorem State.accept_res (c : Command) (rest : List Command) (s : State) : (s.accept c rest).res = s.res := rfl
@[simp] theorem State.accept_fault (c : Command) (rest : List Command) (s : State) : (s.accept c rest).fault = s.fault := rfl
@[simp] theorem State.accept_refused (c : Command) (rest : List Command) (s : State) : (s.accept c rest).refused = s.refused := rfl
@[simp] theorem State.accept_ended (c : Command) (rest : List Command) (s : State) : (s.accept c rest).ended = s.ended := rfl
@[simp] theorem State.accept_out (c : Command) (rest : List Command) (s : State) : (s.accept c rest).out = s.out := rfl
@[simp] theorem State.accept_free (c : Command) (rest : List Command) (s : State) : (s.accept c rest).free = c.free := rfl
@[simp] theorem State.accept_cmd (c : Command) (rest : List Command) (s : State) : (s.accept c rest).cmd = c := rfl
@[simp] theorem State.accept_pending (c : Command) (rest : List Command) (s : State) : (s.accept c rest).pending = rest := rfl

/-! ### appendAll -/

@[simp] theorem State.appendAll_par (c : Chan) (ys : List Symbol) (s : State) : (s.appendAll c ys).par = s.par := by
  induction ys generalizing s with
  | nil => rfl
  | cons y ys ih => exact (ih _).trans rfl
@[simp] theorem State.appendAll_inst (c : Chan) (ys : List Symbol) (s : State) : (s.appendAll c ys).inst = s.inst := by
  induction ys generalizing s with
  | nil => rfl
  | cons y ys ih => exact (ih _).trans rfl
@[simp] theorem State.appendAll_cfg (c : Chan) (ys : List Symbol) (s : State) : (s.appendAll c ys).cfg = s.cfg := by
  induction ys generalizing s with
  | nil => rfl
  | cons y ys ih => exact (ih _).trans rfl
@[simp] theorem State.appendAll_tim (c : Chan) (ys : List Symbol) (s : State) : (s.appendAll c ys).tim = s.tim := by
  induction ys generalizing s with
  | nil => rfl
  | cons y ys ih => exact (ih _).trans rfl
@[simp] theorem State.appendAll_sym (c : Chan) (ys : List Symbol) (s : State) : (s.appendAll c ys).sym = s.sym := by
  induction ys generalizing s with
  | nil => rfl
  | cons y ys ih => exact (ih _).trans rfl
@[simp] theorem State.appendAll_bitOrder (c : Chan) (ys : List Symbol) (s : State) : (s.appendAll c ys).bitOrder = s.bitOrder := by
  induction ys generalizing s with
  | nil => rfl
  | cons y ys ih => exact (ih _).trans rfl
@[simp] theorem State.appendAll_phase (c : Chan) (ys : List Symbol) (s : State) : (s.appendAll c ys).phase = s.phase := by
  induction ys generalizing s with
  | nil => rfl
  | cons y ys ih => exact (ih _).trans rfl
@[simp] theorem State.appendAll_frameReg (c : Chan) (ys : List Symbol) (s : State) : (s.appendAll c ys).frameReg = s.frameReg := by
  induction ys generalizing s with
  | nil => rfl
  | cons y ys ih => exact (ih _).trans rfl
@[simp] theorem State.appendAll_sseLive (c : Chan) (ys : List Symbol) (s : State) : (s.appendAll c ys).sseLive = s.sseLive := by
  induction ys generalizing s with
  | nil => rfl
  | cons y ys ih => exact (ih _).trans rfl
@[simp] theorem State.appendAll_ssePos (c : Chan) (ys : List Symbol) (s : State) : (s.appendAll c ys).ssePos = s.ssePos := by
  induction ys generalizing s with
  | nil => rfl
  | cons y ys ih => exact (ih _).trans rfl
@[simp] theorem State.appendAll_gapLive (c : Chan) (ys : List Symbol) (s : State) : (s.appendAll c ys).gapLive = s.gapLive := by
  induction ys generalizing s with
  | nil => rfl
  | cons y ys ih => exact (ih _).trans rfl
@[simp] theorem State.appendAll_gapPos (c : Chan) (ys : List Symbol) (s : State) : (s.appendAll c ys).gapPos = s.gapPos := by
  induction ys generalizing s with
  | nil => rfl
  | cons y ys ih => exact (ih _).trans rfl
@[simp] theorem State.appendAll_res (c : Chan) (ys : List Symbol) (s : State) : (s.appendAll c ys).res = s.res := by
  induction ys generalizing s with
  | nil => rfl
  | cons y ys ih => exact (ih _).trans rfl
@[simp] theorem State.appendAll_fault (c : Chan) (ys : List Symbol) (s : State) : (s.appendAll c ys).fault = s.fault := by
  induction ys generalizing s with
  | nil => rfl
  | cons y ys ih => exact (ih _).trans rfl
@[simp] theorem State.appendAll_refused (c : Chan) (ys : List Symbol) (s : State) : (s.appendAll c ys).refused = s.refused := by
  induction ys generalizing s with
  | nil => rfl
  | cons y ys ih => exact (ih _).trans rfl
@[simp] theorem State.appendAll_ended (c : Chan) (ys : List Symbol) (s : State) : (s.appendAll c ys).ended = s.ended := by
  induction ys generalizing s with
  | nil => rfl
  | cons y ys ih => exact (ih _).trans rfl
@[simp] theorem State.appendAll_cmd (c : Chan) (ys : List Symbol) (s : State) : (s.appendAll c ys).cmd = s.cmd := by
  induction ys generalizing s with
  | nil => rfl
  | cons y ys ih => exact (ih _).trans rfl
@[simp] theorem State.appendAll_pending (c : Chan) (ys : List Symbol) (s : State) : (s.appendAll c ys).pending = s.pending := by
  induction ys generalizing s with
  | nil => rfl
  | cons y ys ih => exact (ih _).trans rfl

/-- `Append` "reduces `free(chan)` by 1" each time (20_memory.md R55). -/
@[simp] theorem State.appendAll_free (c : Chan) (ys : List Symbol) (s : State) :
    (s.appendAll c ys).free = s.free - ys.length := by
  induction ys generalizing s with
  | nil => rfl
  | cons y ys ih => exact (ih _).trans (by simp; omega)

/-- The output buffers after a delegate call: the symbols appended one by one. -/
theorem State.appendAll_out (c : Chan) (ys : List Symbol) (s : State) :
    (s.appendAll c ys).out = ys.foldl (fun m y => m.append c y) s.out := by
  induction ys generalizing s with
  | nil => rfl
  | cons y ys ih => exact (ih _).trans rfl

end Sys2Proof.Machine
end

