-- ==== Sys2Proof/Laws/Memory.lean ====
section
/-! SUPPORT. The laws of the output buffers: an append keeps the canonical form, adds at the end of its channel's buffer and leaves the
other channels' buffers alone. -/

namespace Sys2Proof.Machine

theorem Memory.read_append_other {c d : Chan} (h : d ≠ c) (y : Symbol) (m : Memory) :
    Memory.read d (m.append c y) = Memory.read d m := by
  induction m with
  | nil => simp [Memory.append, Memory.read, h]
  | cons e m ih =>
    obtain ⟨k, b⟩ := e
    simp only [Memory.append]
    split
    · simp [Memory.read, h]
    · split
      · next hk => subst hk; simp [Memory.read, h]
      · simp [Memory.read, ih]

/-- A channel below every listed one has an empty buffer. -/
theorem Memory.read_below {c : Chan} {m : Memory} (h : ∀ e ∈ m, c < e.1) : Memory.read c m = [] := by
  induction m with
  | nil => rfl
  | cons e m ih =>
    obtain ⟨k, b⟩ := e
    have hk : c < k := h (k, b) (by simp)
    simp only [Memory.read, Nat.ne_of_lt hk, if_false]
    exact ih fun e he => h e (by simp [he])

theorem Memory.read_append_same {m : Memory} (hm : m.wf) (c : Chan) (y : Symbol) :
    Memory.read c (m.append c y) = Memory.read c m ++ [y] := by
  obtain ⟨hs, hne⟩ := hm
  induction m with
  | nil => simp [Memory.append, Memory.read]
  | cons e m ih =>
    obtain ⟨k, b⟩ := e
    rw [List.pairwise_cons] at hs
    simp only [Memory.append]
    split
    · next hk =>
      have : Memory.read c ((k, b) :: m) = [] :=
        Memory.read_below fun e he => by
          rcases List.mem_cons.1 he with rfl | he
          · exact hk
          · exact hk.trans (hs.1 e he)
      simp [this]
      simp [Memory.read]
    · split
      · next hk => subst hk; simp [Memory.read]
      · next hk =>
        simp only [Memory.read, hk, if_false]
        exact ih hs.2 fun e he => hne e (by simp [he])

/-- The channels listed after an append. -/
theorem Memory.mem_append_key {m : Memory} {c : Chan} {y : Symbol} {e : Chan × List Symbol} (h : e ∈ m.append c y) :
    e.1 = c ∨ ∃ e' ∈ m, e'.1 = e.1 := by
  induction m with
  | nil => simp [Memory.append] at h; simp [h]
  | cons a m ih =>
    obtain ⟨k, b⟩ := a
    simp only [Memory.append] at h
    split at h
    · rcases List.mem_cons.1 h with rfl | h
      · exact .inl rfl
      · exact .inr ⟨e, h, rfl⟩
    · split at h
      · next hk =>
        rcases List.mem_cons.1 h with rfl | h
        · exact .inl hk.symm
        · exact .inr ⟨e, by simp [h], rfl⟩
      · rcases List.mem_cons.1 h with rfl | h
        · exact .inr ⟨(k, b), by simp, rfl⟩
        · rcases ih h with h | ⟨e', he', h⟩
          · exact .inl h
          · exact .inr ⟨e', by simp [he'], h⟩

/-- Every append keeps the canonical form. -/
theorem Memory.append_wf {m : Memory} (hm : m.wf) (c : Chan) (y : Symbol) : (m.append c y).wf := by
  obtain ⟨hs, hne⟩ := hm
  induction m with
  | nil => simp [Memory.append, Memory.wf]
  | cons a m ih =>
    obtain ⟨k, b⟩ := a
    have hs' := List.pairwise_cons.1 hs
    have hne' : ∀ e ∈ m, e.2 ≠ [] := fun e he => hne e (by simp [he])
    simp only [Memory.append]
    split
    · next hk =>
      refine ⟨List.pairwise_cons.2 ⟨fun e he => ?_, hs⟩, fun e he => ?_⟩
      · rcases List.mem_cons.1 he with rfl | he
        · exact hk
        · exact hk.trans (hs'.1 e he)
      · rcases List.mem_cons.1 he with rfl | he
        · simp
        · exact hne e he
    · split
      · refine ⟨List.pairwise_cons.2 ⟨hs'.1, hs'.2⟩, fun e he => ?_⟩
        rcases List.mem_cons.1 he with rfl | he
        · simp
        · exact hne' e he
      · next h₁ h₂ =>
        obtain ⟨ihs, ihn⟩ := ih hs'.2 hne'
        refine ⟨List.pairwise_cons.2 ⟨fun e he => ?_, ihs⟩, fun e he => ?_⟩
        · rcases Memory.mem_append_key he with h | ⟨e', he', h⟩
          · simpa [h] using Nat.lt_of_le_of_ne (Nat.le_of_not_lt h₁) (fun e => h₂ e.symm)
          · simpa [h] using hs'.1 e' he'
        · rcases List.mem_cons.1 he with rfl | he
          · exact hne (k, b) (by simp)
          · exact ihn e he

theorem State.appendAll_out_wf {s : State} (h : s.out.wf) (c : Chan) (ys : List Symbol) : (s.appendAll c ys).out.wf := by
  induction ys generalizing s with
  | nil => exact h
  | cons y ys ih => exact ih (s := s.append c y) (Memory.append_wf h c y)

/-- A delegate's symbols stand at the end of the channel's buffer, in order (20_memory.md R55, R60). -/
theorem State.read_appendAll_same {s : State} (h : s.out.wf) (c : Chan) (ys : List Symbol) :
    Memory.read c (s.appendAll c ys).out = Memory.read c s.out ++ ys := by
  induction ys generalizing s with
  | nil => simp [State.appendAll]
  | cons y ys ih =>
    have := ih (s := s.append c y) (Memory.append_wf h c y)
    rw [State.appendAll, this, State.append_out, Memory.read_append_same h]
    simp

theorem State.read_appendAll_other {c d : Chan} (h : d ≠ c) (s : State) (ys : List Symbol) :
    Memory.read d (s.appendAll c ys).out = Memory.read d s.out := by
  induction ys generalizing s with
  | nil => rfl
  | cons y ys ih => exact (ih _).trans (Memory.read_append_other h y s.out)

/-- Appending one delegate's symbols after another's. -/
theorem State.appendAll_append (c : Chan) (ys zs : List Symbol) (s : State) :
    s.appendAll c (ys ++ zs) = (s.appendAll c ys).appendAll c zs := by
  induction ys generalizing s with
  | nil => rfl
  | cons y ys ih => exact ih _

/-- The closed form of one delegate call's appends: only the buffers and the free space change. -/
theorem State.appendAll_eq (c : Chan) (ys : List Symbol) (s : State) :
    s.appendAll c ys = { s with out := ys.foldl (fun m y => m.append c y) s.out, free := s.free - ys.length } := by
  induction ys generalizing s with
  | nil => rfl
  | cons y ys ih =>
    rw [State.appendAll, ih]
    simp only [State.append, List.foldl_cons, List.length_cons, Nat.sub_sub, Nat.add_comm 1]

theorem State.reset_out_wf : State.reset.out.wf := by decide

end Sys2Proof.Machine
end

