-- ==== Sys2Proof/Laws/Ops.lean ====
section
/-! SUPPORT. What each shared operation can do, once: endings, register reads, delegate calls, the two phases of ENCODE, and each
meaning by its cases. -/

namespace Sys2Proof.Machine

/-! ### Register reads and endings -/

@[simp] theorem need_some {α : Type} (r : Reg) (x : α) (s : State) (k : α → Result) : need r (some x) s k = k x := rfl

@[simp] theorem need_none {α : Type} (r : Reg) (s : State) (k : α → Result) :
    need r none s k = .next (s.addFault (.unwrittenRead r)) := rfl

/-- A register read goes on with the value, or faults. -/
theorem need_cases {α : Type} {r : Reg} {v : Option α} {s t : State} {k : α → Result} (h : need r v s k = .next t) :
    (∃ x, v = some x ∧ k x = .next t) ∨ (v = none ∧ t = s.addFault (.unwrittenRead r)) := by
  cases v with
  | none => exact .inr ⟨rfl, by simpa [eq_comm] using h⟩
  | some x => exact .inl ⟨x, rfl, h⟩

@[simp] theorem finish_eq (k : BitVec 2) (s : State) : finish k s = .next (s.writeResults k none none none) := rfl

@[simp] theorem finishEncode_eq (n : Nat) (f : FlagSet) (s : State) :
    finishEncode n f s = .next (s.writeResults codeOk (some (BitVec.ofNat 32 n)) (some f.encode) none) := rfl

@[simp] theorem finishFrame_eq (w : Half) (s : State) : finishFrame w s = .next (s.writeResults codeOk none none (some w)) := rfl

@[simp] theorem raiseFault_eq (f : Fault) (s : State) : raiseFault f s = .next (s.addFault f) := rfl

@[simp] theorem refuse_eq (r : Refusal) (s : State) : refuse r s = .next (s.markRefused r) := rfl

/-- A fault adds its record and loses none. -/
theorem State.mem_addFault {f g : Fault} {s : State} : g ∈ (s.addFault f).fault ↔ g = f ∨ g ∈ s.fault := by
  simp only [State.addFault_fault]
  split
  · next h => exact ⟨.inr, fun h' => h'.elim (fun e => e ▸ h) id⟩
  · simp [or_comm]

/-! ### Delegate calls -/

@[simp] theorem sseUnit_length (o : BitOrder) (b1 b0 : Symbol) (w : Half) : (sseUnit o b1 b0 w frameBytes).length = 16 := by
  simp [sseUnit, frameBytes]

@[simp] theorem gapUnit_length (g : Symbol) (k : Nat) : (gapUnit g k).length = 1 := rfl

/-- What a met contract says of the count and the completion flag (43_subencoders.md R201, obligations 1 and 4). -/
theorem contractMet_count {F pos : Nat} {unit : List Symbol} {a : Answer} (h : contractMet F pos unit a = true) :
    a.n ≤ F ∧ a.n ≤ unit.length - pos ∧ a.symbols.length = a.n ∧ a.flags.complete = decide (pos + a.n = unit.length) := by
  simp only [contractMet, Bool.and_eq_true, decide_eq_true_eq] at h
  obtain ⟨⟨⟨⟨⟨⟨h1, h2⟩, h3⟩, -⟩, -⟩, h6⟩, -⟩ := h
  exact ⟨h1, h2, h3, h6⟩

/-- A completed unit returns the SSE to its start. -/
theorem nextSsePos_complete {pos : Fin 16} {n : Nat} (h : pos.val + n = 16) : nextSsePos pos n = 0 := by
  simp [nextSsePos, h]

/-- The GAP always stands at the start of its unit. -/
theorem gapPos_eq_zero (p : Fin 1) : p = 0 := Subsingleton.elim _ _

/-- The SSE call with every register it reads holding a value. -/
theorem callSse_eq {s : State} {pos : Fin 16} {w : Half} {b1 b0 : Symbol} (hp : s.ssePos = some pos) (hw : s.frameReg = some w)
    (h1 : s.sym.bit1 = some b1) (h0 : s.sym.bit0 = some b0) (k : Nat → FlagSet → State → Result) :
    callSse s k = finishSseCall s pos (sseUnit s.bitOrder b1 b0 w frameBytes)
      (sseAnswer s pos.val (sseUnit s.bitOrder b1 b0 w frameBytes)) k := by
  simp only [callSse, hp, hw, h1, h0, need_some]

/-- The GAP call with every register it reads holding a value. -/
theorem callGap_eq {s : State} {g : Symbol} (hp : s.gapPos = some 0) (hg : s.sym.gap = some g) (k : Nat → FlagSet → State → Result) :
    callGap s k = finishGapCall s 0 [g] (gapAnswer s 0 [g]) k := by
  simp only [callGap, hp, hg, need_some, gapUnit]
  rfl

/-- What the SSE call can do. -/
theorem callSse_cases {s t : State} {k : Nat → FlagSet → State → Result} (h : callSse s k = .next t) :
    (∃ r, t = s.addFault (.unwrittenRead r) ∧
      (s.ssePos = none ∨ s.frameReg = none ∨ s.sym.bit1 = none ∨ s.sym.bit0 = none)) ∨
    ∃ pos unit a, s.ssePos = some pos ∧ unit.length = 16 ∧ a = sseAnswer s pos.val unit ∧
      (contractMet s.free pos.val unit a = true ∧
          k a.n a.flags ((s.appendAll s.opChan a.symbols).setSsePos (nextSsePos pos a.n)) = .next t ∨
        contractMet s.free pos.val unit a = false ∧
          t = (s.appendAll s.opChan a.symbols).addFault (.collaboratorContractViolation s.cmd.cw .sse a.n a.flags)) := by
  rcases need_cases h with ⟨pos, hp, h⟩ | ⟨h0, h⟩
  swap; · exact .inl ⟨_, h, .inl h0⟩
  rcases need_cases h with ⟨w, hw, h⟩ | ⟨h0, h⟩
  swap; · exact .inl ⟨_, h, .inr (.inl h0)⟩
  rcases need_cases h with ⟨b1, hb1, h⟩ | ⟨h0, h⟩
  swap; · exact .inl ⟨_, h, .inr (.inr (.inl h0))⟩
  rcases need_cases h with ⟨b0, hb0, h⟩ | ⟨h0, h⟩
  swap; · exact .inl ⟨_, h, .inr (.inr (.inr h0))⟩
  refine .inr ⟨pos, sseUnit s.bitOrder b1 b0 w frameBytes, _, hp, by simp, rfl, ?_⟩
  simp only [finishSseCall] at h
  split at h
  · next hc => exact .inl ⟨hc, h⟩
  · next hc => exact .inr ⟨by simpa using hc, by simpa [eq_comm] using h⟩

/-- What the GAP call can do. -/
theorem callGap_cases {s t : State} {k : Nat → FlagSet → State → Result} (h : callGap s k = .next t) :
    (∃ r, t = s.addFault (.unwrittenRead r) ∧ (s.gapPos = none ∨ s.sym.gap = none)) ∨
    ∃ g a, s.gapPos = some 0 ∧ s.sym.gap = some g ∧ a = gapAnswer s 0 [g] ∧
      (contractMet s.free 0 [g] a = true ∧
          k a.n a.flags ((s.appendAll s.opChan a.symbols).setGapPos 0) = .next t ∨
        contractMet s.free 0 [g] a = false ∧
          t = (s.appendAll s.opChan a.symbols).addFault (.collaboratorContractViolation s.cmd.cw .gap a.n a.flags)) := by
  rcases need_cases h with ⟨pos, hp, h⟩ | ⟨h0, h⟩
  swap; · exact .inl ⟨_, h, .inl h0⟩
  rcases need_cases h with ⟨g, hg, h⟩ | ⟨h0, h⟩
  swap; · exact .inl ⟨_, h, .inr h0⟩
  obtain rfl := gapPos_eq_zero pos
  refine .inr ⟨g, _, hp, hg, rfl, ?_⟩
  simp only [finishGapCall, gapUnit, gapPos_eq_zero (nextGapPos _ _)] at h
  split at h
  · next hc => exact .inl ⟨hc, h⟩
  · next hc => exact .inr ⟨by simpa using hc, by simpa [eq_comm] using h⟩

/-! ### The phases of ENCODE -/

/-- What the gap phase can do. -/
theorem gapPhase_cases {n : Nat} {p : Phase} {s t : State} (h : gapPhase n p s = .next t) :
    (∃ r, t = s.addFault (.unwrittenRead r) ∧ (s.gapPos = none ∨ s.sym.gap = none)) ∨
    ∃ g a, s.gapPos = some 0 ∧ s.sym.gap = some g ∧ a = gapAnswer s 0 [g] ∧
      (contractMet s.free 0 [g] a = true ∧
          t = (((s.appendAll s.opChan a.symbols).setGapPos 0).setPhase (phaseAfterGap a.flags p)).writeResults codeOk
            (some (BitVec.ofNat 32 (n + a.n))) (some (flagsAfterGap a.flags).encode) none ∨
        contractMet s.free 0 [g] a = false ∧
          t = (s.appendAll s.opChan a.symbols).addFault (.collaboratorContractViolation s.cmd.cw .gap a.n a.flags)) := by
  rcases callGap_cases h with h | ⟨g, a, hp, hg, ha, h⟩
  · exact .inl h
  · refine .inr ⟨g, a, hp, hg, ha, h.imp (fun h => ⟨h.1, ?_⟩) id⟩
    simpa [eq_comm] using h.2

/-- What the frame phase can do. -/
theorem framePhase_cases {s t : State} (h : framePhase s = .next t) :
    (∃ r, t = s.addFault (.unwrittenRead r) ∧
      (s.ssePos = none ∨ s.frameReg = none ∨ s.sym.bit1 = none ∨ s.sym.bit0 = none)) ∨
    ∃ pos unit a u, s.ssePos = some pos ∧ unit.length = 16 ∧ a = sseAnswer s pos.val unit ∧
      u = ((s.appendAll s.opChan a.symbols).setSsePos (nextSsePos pos a.n)).setPhase (phaseAfterFrame a.flags .awaitingFrame) ∧
      (contractMet s.free pos.val unit a = false ∧
          t = (s.appendAll s.opChan a.symbols).addFault (.collaboratorContractViolation s.cmd.cw .sse a.n a.flags) ∨
        contractMet s.free pos.val unit a = true ∧
          ((∃ f, afterFrame s.par.neitherPolicy a.flags = .stop f ∧
              t = u.writeResults codeOk (some (BitVec.ofNat 32 a.n)) (some f.encode) none) ∨
            afterFrame s.par.neitherPolicy a.flags = .gapPhase ∧
              gapPhase a.n (phaseAfterFrame a.flags .awaitingFrame) u = .next t)) := by
  rcases callSse_cases h with h | ⟨pos, unit, a, hp, hu, ha, h⟩
  · exact .inl h
  · refine .inr ⟨pos, unit, a, _, hp, hu, ha, rfl, ?_⟩
    rcases h with ⟨hc, h⟩ | h
    · refine .inr ⟨hc, ?_⟩
      split at h
      · next f hf => exact .inl ⟨f, hf, by simpa [eq_comm] using h⟩
      · next hf => exact .inr ⟨hf, h⟩
    · exact .inl h

/-! ### Meanings -/

/-- What ENCODE can do: a check stops it, or the phase register picks its phase. -/
theorem execEncode_cases {thr : Half} {tlm : Bool} {s t : State} (h : execEncode thr tlm s = .next t) :
    (s.inst ≠ .live ∧ t = s.addFault (.noInstance s.cmd.cw)) ∨
    (s.inst = .live ∧ s.cmd.shared = true ∧ t = s.markRefused .sharedOutputBuffer) ∨
    (s.inst = .live ∧ s.cmd.shared = false ∧ s.cfg.bidir = none ∧ t = s.addFault (.unwrittenRead .cfgBidir)) ∨
    ∃ b, s.inst = .live ∧ s.cmd.shared = false ∧ s.cfg.bidir = some b ∧
      ((s.phase = none ∧ t = (s.writeFrame (wireFrame thr tlm b)).addFault (.unwrittenRead .phase)) ∨
        (s.phase = some .awaitingFrame ∧ framePhase (s.writeFrame (wireFrame thr tlm b)) = .next t) ∨
        (s.phase = some .awaitingGap ∧ gapPhase 0 .awaitingGap (s.writeFrame (wireFrame thr tlm b)) = .next t)) := by
  unfold execEncode at h
  split at h
  · next hi => exact .inl ⟨hi, by simpa [eq_comm] using h⟩
  next hi =>
  rw [ne_eq, not_not] at hi
  split at h
  · next hs => exact .inr (.inl ⟨hi, hs, by simpa [eq_comm] using h⟩)
  next hs =>
  have hs : s.cmd.shared = false := by simpa using hs
  rcases need_cases h with ⟨b, hb, h⟩ | ⟨h0, h⟩
  swap; · exact .inr (.inr (.inl ⟨hi, hs, h0, h⟩))
  refine .inr (.inr (.inr ⟨b, hi, hs, hb, ?_⟩))
  rcases need_cases h with ⟨p, hp, h⟩ | ⟨h0, h⟩
  swap; · exact .inl ⟨h0, h⟩
  cases p with
  | awaitingFrame => exact .inr (.inl ⟨hp, h⟩)
  | awaitingGap => exact .inr (.inr ⟨hp, h⟩)

/-- A delegate's reset or destroy goes on, or faults with what the answer appended. -/
theorem execReset_cases {s t : State} (h : execReset s = .next t) :
    (s.inst ≠ .live ∧ t = s.addFault (.noInstance s.cmd.cw)) ∨
    (s.inst = .live ∧ quiet s.cmd.sse = false ∧ misbehaved .sse s.cmd.sse s = .next t) ∨
    (s.inst = .live ∧ quiet s.cmd.sse = true ∧ quiet s.cmd.gap = false ∧
      misbehaved .gap s.cmd.gap (s.setSsePos 0) = .next t) ∨
    (s.inst = .live ∧ quiet s.cmd.sse = true ∧ quiet s.cmd.gap = true ∧
      t = (((s.setSsePos 0).setGapPos 0).setPhase .awaitingFrame).writeResults codeOk none none none) := by
  unfold execReset callSseReset callGapReset at h
  split at h
  · next hi => exact .inl ⟨hi, by simpa [eq_comm] using h⟩
  next hi =>
  rw [ne_eq, not_not] at hi
  split at h
  · next h1 =>
    beta_reduce at h
    split at h
    · next h2 => exact .inr (.inr (.inr ⟨hi, h1, h2, by simpa [eq_comm] using h⟩))
    · next h2 => exact .inr (.inr (.inl ⟨hi, h1, by simpa using h2, h⟩))
  · next h1 => exact .inr (.inl ⟨hi, by simpa using h1, h⟩)

/-- What DESTROY can do. -/
theorem execDestroy_cases {s t : State} (h : execDestroy s = .next t) :
    (s.inst ≠ .live ∧ t = s.addFault (.noInstance s.cmd.cw)) ∨
    (s.inst = .live ∧ quiet s.cmd.sse = false ∧ misbehaved .sse s.cmd.sse s = .next t) ∨
    (s.inst = .live ∧ quiet s.cmd.sse = true ∧ quiet s.cmd.gap = false ∧
      misbehaved .gap s.cmd.gap s.dropSse = .next t) ∨
    (s.inst = .live ∧ quiet s.cmd.sse = true ∧ quiet s.cmd.gap = true ∧
      t = s.dropSse.dropGap.releaseStorage.writeResults codeOk none none none) := by
  unfold execDestroy callSseDestroy callGapDestroy at h
  split at h
  · next hi => exact .inl ⟨hi, by simpa [eq_comm] using h⟩
  next hi =>
  rw [ne_eq, not_not] at hi
  split at h
  · next h1 =>
    beta_reduce at h
    split at h
    · next h2 => exact .inr (.inr (.inr ⟨hi, h1, h2, by simpa [eq_comm] using h⟩))
    · next h2 => exact .inr (.inr (.inl ⟨hi, h1, by simpa using h2, h⟩))
  · next h1 => exact .inr (.inl ⟨hi, by simpa using h1, h⟩)

/-- What CONSTRUCT can do. -/
theorem execConstruct_cases {bidir : Bool} {s t : State} (h : execConstruct bidir s = .next t) :
    (s.inst = .live ∧ t = s.addFault (.alreadyLive s.cmd.cw)) ∨
    (s.inst ≠ .live ∧ t = s.markRefused .configNotAdmitted) ∨
    (s.inst ≠ .live ∧ t = s.writeResults codeOutOfMemory none none none) ∨
    (s.inst ≠ .live ∧ s.opRes ≠ 0 ∧ s.opBaud ≠ 0 ∧ fitsDurations s.par (deriveTiming s.opRes s.opBaud s.opDelay) = true ∧
      t = (s.install (cfgOf s.cmd.res s.cmd.baud s.cmd.delay bidir) (timingRegsOf (deriveTiming s.opRes s.opBaud s.opDelay))
        (symbolRegsOf (deriveTiming s.opRes s.opBaud s.opDelay))).writeResults codeOk none none none) := by
  unfold execConstruct at h
  split at h
  · next hi => exact .inl ⟨hi, by simpa [eq_comm] using h⟩
  next hi =>
  split at h
  · exact .inr (.inl ⟨hi, by simpa [eq_comm] using h⟩)
  next hz =>
  rw [not_or] at hz
  dsimp only at h
  split at h
  · exact .inr (.inl ⟨hi, by simpa [eq_comm] using h⟩)
  next hf =>
  split at h
  · exact .inr (.inr (.inl ⟨hi, by simpa [eq_comm] using h⟩))
  split at h
  · exact .inr (.inr (.inl ⟨hi, by simpa [eq_comm] using h⟩))
  split at h
  · exact .inr (.inr (.inl ⟨hi, by simpa [eq_comm] using h⟩))
  exact .inr (.inr (.inr ⟨hi, hz.1, hz.2, by simpa using hf, by simpa [eq_comm] using h⟩))

/-- The admission check fails exactly where one of the five durations is above `DUR_MAX` (42_construction_timing.md R178). -/
theorem fitsDurations_eq_false_iff (p : Params) (t : Timing) :
    fitsDurations p t = false ↔
      durMax p < t.t1h ∨ durMax p < t.t1l ∨ durMax p < t.t0h ∨ durMax p < t.t0l ∨ durMax p < t.gapHalf := by
  rw [Bool.eq_false_iff]
  simp only [fitsDurations, ne_eq, Bool.and_eq_true, decide_eq_true_eq, not_and_or, not_le, or_assoc]

/-- What the null form of CONSTRUCT can do. -/
theorem execConstructNull_cases {s t : State} (h : execConstructNull s = .next t) :
    (s.inst = .live ∧ t = s.addFault (.alreadyLive s.cmd.cw)) ∨
    (s.inst ≠ .live ∧ t = s.writeResults codeInvalidArgument none none none) := by
  unfold execConstructNull at h
  split at h
  · next hi => exact .inl ⟨hi, by simpa [eq_comm] using h⟩
  · next hi => exact .inr ⟨hi, by simpa [eq_comm] using h⟩

/-- What BUILD_FRAME does. -/
theorem execBuildFrame_eq (thr : Half) (tlm bidir : Bool) (s : State) :
    execBuildFrame thr tlm bidir s = .next (s.writeResults codeOk none none (some (wireFrame thr tlm bidir))) := rfl

/-! ### The lifecycle clause -/

theorem lifecycleInv_of_live {s : State} (h : s.inst = .live) : LifecycleInv s ↔ InstanceFull s := by
  simp only [LifecycleInv, h]

theorem lifecycleInv_of_not_live {s : State} (h : s.inst ≠ .live) : LifecycleInv s ↔ InstanceEmpty s := by
  unfold LifecycleInv
  split
  · next hl => exact absurd hl h
  · exact Iff.rfl
  · exact Iff.rfl

/-- A live block stays full under any update that keeps its configuration, timing, symbols and live bits. -/
theorem InstanceFull.transfer {s t : State} (h : InstanceFull s) (hp : t.par = s.par) (hc : t.cfg = s.cfg) (ht : t.tim = s.tim)
    (hy : t.sym = s.sym) (hl₁ : t.sseLive = s.sseLive) (hl₂ : t.gapLive = s.gapLive) (h₁ : t.phase.isSome) (h₂ : t.ssePos.isSome)
    (h₃ : t.gapPos.isSome) : InstanceFull t := by
  obtain ⟨hcfg, -, k₁, -, k₂, -⟩ := h
  exact ⟨by rw [hp, hc, ht, hy]; exact hcfg, h₁, hl₁.trans k₁, h₂, hl₂.trans k₂, h₃⟩

/-- What a step can do (60_exceptions.md R236, R247; 30_encoding.md R70, R77). -/
theorem step_cases {s t : State} (h : step s = .next t) :
    s.fault = [] ∧
    ((s.pending = [] ∧ t = s) ∨
      ∃ c rest, s.pending = c :: rest ∧
        ((decode c.cw = .reservedEncoding ∧ t = (s.accept c rest).markRefused .reservedEncoding) ∨
          ∃ i, decode c.cw = .command i ∧ exec i (s.accept c rest) = .next t)) := by
  unfold step at h
  split at h
  · exact absurd h (by simp)
  next hf =>
  refine ⟨hf, ?_⟩
  split at h
  · next hp => exact .inl ⟨hp, by simpa [eq_comm] using h⟩
  next c rest hp =>
  refine .inr ⟨c, rest, hp, ?_⟩
  split at h
  · next hd => exact .inl ⟨hd, by simpa [eq_comm] using h⟩
  · next i hd => exact .inr ⟨i, hd, h⟩

end Sys2Proof.Machine
end

