-- ==== Sys2Proof/Tests/Slice0.lean ====
section
/-! SUPPORT. The model's own tests, their expected values from the rows of 95_test_vectors.md; the refusals of the well-formedness check; and a witness for
the hypotheses of every statement of Obligations. -/

namespace Sys2Proof.Tests

open Sys2Proof Sys2Proof.Machine

/-! ### Small states -/

/-- The state a meaning answers; the state itself where it answers none. -/
def after (i : Instr) (s : State) : State :=
  match exec i s with
  | .next t => t
  | _ => s

/-- The payload symbols and the gap symbol of configuration K40 (95_test_vectors.md, P1). -/
def one : Symbol := ⟨true, 49, false, 17⟩
def zero : Symbol := ⟨true, 24, false, 42⟩
def gap : Symbol := ⟨false, 1000, false, 1000⟩

/-- A live block with configuration K40 (TM-2, CO-7), in phase `p`, with `pos` symbols of the frame out and `free` slots. -/
def k40 (bidir : Bool) (p : Phase) (pos : Fin 16) (free : Nat) : State :=
  { State.reset with
    inst := .live
    cfg := ⟨some 40000000#32, some 600000#32, some 50#32, some bidir⟩
    tim := ⟨some 66, some 49, some 17, some 24, some 42, some 2000, some 1000⟩
    sym := ⟨some one, some zero, some gap⟩
    phase := some p
    sseLive := true
    ssePos := some pos
    gapLive := true
    gapPos := some 0
    free := free }

/-- The same with a command port that carries the operands of K40's CONSTRUCT and the given allocation outcomes. -/
def port (res baud delay : Word) (a1 a2 a3 : Bool) (s : State) : State :=
  { s with cmd := { Command.blank with res := res, baud := baud, delay := delay, a1 := a1, a2 := a2, a3 := a3 } }

/-- The SSE and the GAP of this command answer so. -/
def answers (sse gap : Option Answer) (s : State) : State := { s with cmd := { s.cmd with sse := sse, gap := gap } }

/-- The host has issued these commands. -/
def issued (cs : List Command) (s : State) : State := { s with pending := cs }

/-- A command with the given word. -/
def word (cw : Word) : Command := { Command.blank with cw := cw }

/-- The symbols of a bit string. -/
def bits (l : List Bool) : List Symbol := l.map fun b => if b then one else zero

/-- `1000001011000110`, the bits of `0x82C6` (SE-4). -/
def bits82C6 : List Symbol :=
  bits [true, false, false, false, false, false, true, false, true, true, false, false, false, true, true, false]

/-! ### Decoding (L2-DC) -/

/-- DC-3, DC-2. -/
theorem test_decode_encode :
    decode 0b1111111111111111_000000000_0_0_1_0000#32 = .command (.encode 65535#16 true)
      ∧ decode 0b0000000000000000_000000000_0_0_1_0000#32 = .command (.encode 0#16 true) := by decide

/-- DC-6. -/
theorem test_decode_reset : decode 0b0000000000000000_000000000_0_0_0_0001#32 = .command .reset := by decide

/-- DC-9. -/
theorem test_decode_destroy : decode 0b0000000000000000_000000000_0_0_0_0010#32 = .command .destroy := by decide

/-- DC-11, DC-12. -/
theorem test_decode_construct :
    decode 0b0000000000000000_000000000_1_0_0_0011#32 = .command (.construct false)
      ∧ decode 0b0000000000000000_000000000_1_1_0_0011#32 = .command (.construct true) := by decide

/-- DC-13. -/
theorem test_decode_construct_null : decode 0b0000000000000000_000000000_0_0_0_0011#32 = .command .constructNull := by decide

/-- DC-18 and FB-26. -/
theorem test_decode_build_frame :
    decode 0b1111111111111111_000000000_0_1_1_0100#32 = .command (.buildFrame 65535#16 true true)
      ∧ decode 0b0000010000010110_000000000_0_1_0_0100#32 = .command (.buildFrame 1046#16 false true) := by decide

/-- DC-4, DC-5, DC-7, DC-8, DC-10, DC-14. -/
theorem test_decode_reserved :
    decode 0x00000020#32 = .reservedEncoding ∧ decode 0x00000080#32 = .reservedEncoding
      ∧ decode 0x00000011#32 = .reservedEncoding ∧ decode 0x00010001#32 = .reservedEncoding
      ∧ decode 0x80000002#32 = .reservedEncoding ∧ decode 0x00000023#32 = .reservedEncoding := by decide

/-- DC-15, DC-16, DC-19, the two ends of DC-20, DC-21. -/
theorem test_decode_reserved_more :
    decode 0x00000053#32 = .reservedEncoding ∧ decode 0x00010043#32 = .reservedEncoding
      ∧ decode 0x00000044#32 = .reservedEncoding ∧ decode 0x00000005#32 = .reservedEncoding
      ∧ decode 0x0000000F#32 = .reservedEncoding ∧ decode 0xFFFFFFFF#32 = .reservedEncoding := by decide

/-- R78: a word of another length is none. -/
theorem test_decode_table_word :
    decodeTableWord 32 0x63 = some (.construct true) ∧ decodeTableWord 32 0x23 = none ∧ decodeTableWord 40 1 = none
      ∧ decodeTableWord 32 0x100000001 = none := by decide

/-- The words of P1, P2, P5 and P7. -/
theorem test_encode_words :
    encode (.encode 1046#16 false) = 0x04160000#32 ∧ encode (.encode 2047#16 true) = 0x07FF0010#32
      ∧ encode .reset = 0x00000001#32 ∧ encode .destroy = 0x00000002#32 ∧ encode (.construct true) = 0x00000063#32
      ∧ encode .constructNull = 0x00000003#32 ∧ encode (.buildFrame 1046#16 false true) = 0x04160024#32 := by decide

/-! ### Well-formedness (30_encoding.md R80) -/

theorem test_asm_at_the_bounds_is_accepted :
    (AsmLine.encode 65535 1).wellFormed = true ∧ (AsmLine.construct 4294967295 4294967295 4294967295 1).wellFormed = true
      ∧ (AsmLine.buildFrame 65535 1 1).wellFormed = true := by decide

theorem test_asm_throttle_out_of_range_is_refused :
    (AsmLine.encode 65536 0).wellFormed = false ∧ (AsmLine.buildFrame 65536 0 0).wellFormed = false := by decide

theorem test_asm_telemetry_out_of_range_is_refused :
    (AsmLine.encode 0 2).wellFormed = false ∧ (AsmLine.buildFrame 0 2 0).wellFormed = false := by decide

theorem test_asm_configuration_out_of_range_is_refused :
    (AsmLine.construct 4294967296 1 0 0).wellFormed = false ∧ (AsmLine.construct 1 4294967296 0 0).wellFormed = false
      ∧ (AsmLine.construct 1 1 4294967296 0).wellFormed = false ∧ (AsmLine.construct 1 1 0 2).wellFormed = false
      ∧ (AsmLine.buildFrame 0 0 2).wellFormed = false := by decide

/-! ### Assembly (30_encoding.md R80, R81) -/

/-- The first two lines of P1, with their annotations. -/
theorem test_assemble_line :
    assembleLine 0 "CONSTRUCT 40000000, 600000, 50, 0     ; alloc=ok,fail,ok".toList
        = some [{ word 0x00000043#32 with res := 40000000#32, baud := 600000#32, delay := 50#32, a2 := false }]
      ∧ assembleLine 0 "ENCODE    1046, 0   ; free=64".toList = some [{ word 0x04160000#32 with free := 64 }] := by decide

/-- The pseudo-instructions of R81. -/
theorem test_assemble_pseudo :
    assembleLine 0 "ENCODE 0x7FF".toList = some [word 0x07FF0000#32]
      ∧ assembleLine 0 "BUILD_FRAME 2047, 1".toList = some [word 0x07FF0014#32] := by decide

/-- An annotation without a blank (log 20), the null form, a blank line, and a line whose operand is out of range. -/
theorem test_assemble_null :
    assembleLine 0 "RESET ;free=64".toList = some [{ word 0x00000001#32 with free := 64 }] ∧
      assembleLine 0 "CONSTRUCT null".toList = some [word 0x00000003#32] ∧ assembleLine 0 "  ; nothing".toList = some []
      ∧ assembleLine 0 "ENCODE 65536".toList = none := by decide

/-! ### BUILD_FRAME (L2-FB) -/

/-- FB-26, FB-40, FB-49. -/
theorem test_build_frame :
    (after (.buildFrame 1046#16 false true) State.reset).res = ⟨some 0#2, none, none, some 0xC982#16⟩
      ∧ (after (.buildFrame 2047#16 true true) State.reset).res.frame = some 0xF0FF#16
      ∧ (after (.buildFrame 3094#16 false false) State.reset).res.frame = some 0xC682#16 := by decide

/-- FB-13: the byte lanes of `W = 0xEB05`. -/
theorem test_frame_buffer_lanes : fbRead 0xEB05#16 0 = 0x05#8 ∧ fbRead 0xEB05#16 1 = 0xEB#8 := by decide

/-! ### CONSTRUCT (L2-CO, L2-TM) -/

/-- CO-7, CO-5, TM-16. -/
theorem test_construct :
    (after (.construct false) (port 40000000#32 600000#32 50#32 true true true State.reset)).tim
        = ⟨some 66, some 49, some 17, some 24, some 42, some 2000, some 1000⟩
      ∧ after (.construct false) (port 40000000#32 600000#32 50#32 true false true State.reset)
        = Claim.returnedCode 2#2 (port 40000000#32 600000#32 50#32 true false true State.reset)
      ∧ (after (.construct false) (port 43779#32 1#32 0#32 true true true State.reset)).ended = .refused .configNotAdmitted := by
  decide

/-- CO-8, CO-12, TM-15. -/
theorem test_construct_order :
    (after (.construct false) (port 40000000#32 600000#32 50#32 true true true (k40 false .awaitingFrame 0 0))).fault
        = [.alreadyLive 0#32]
      ∧ (after (.construct false) (port 80000000#32 150000#32 1000#32 false true true State.reset)).refused = true
      ∧ (after (.construct false) (port 43778#32 1#32 0#32 true true true State.reset)).sym.bit1
        = some ⟨true, 32767, false, 11011⟩ := by decide

/-- CO-11, CO-10. -/
theorem test_construct_null :
    after .constructNull (port 0#32 0#32 0#32 false false false State.reset)
        = Claim.returnedCode 1#2 (port 0#32 0#32 0#32 false false false State.reset)
      ∧ (after .constructNull (k40 false .awaitingFrame 0 0)).fault = [.alreadyLive 0#32] := by decide

/-! ### ENCODE (L2-O) -/

/-- O-4, O-11: symbols, count, flags, phase and position. -/
theorem test_encode_completes :
    (let t := after (.encode 1046#16 false) (k40 false .awaitingFrame 0 17)
     Memory.read 0 t.out = bits82C6 ++ [gap] ∧ t.res.count = some 17#32 ∧ t.res.flags = some 0b11#2
       ∧ t.phase = some .awaitingFrame ∧ t.ssePos = some 0 ∧ t.frameReg = some 0xC682#16)
      ∧ (let t := after (.encode 1046#16 false) (k40 false .awaitingFrame 15 2)
         Memory.read 0 t.out = [zero, gap] ∧ t.res.count = some 2#32 ∧ t.res.flags = some 0b11#2) := by decide

/-- O-3 (first command), SE-6, O-8: a full buffer. -/
theorem test_encode_full :
    (let t := after (.encode 1046#16 false) (k40 false .awaitingFrame 0 16)
     Memory.read 0 t.out = bits82C6 ∧ t.res.count = some 16#32 ∧ t.res.flags = some 0b10#2 ∧ t.phase = some .awaitingGap
       ∧ t.ssePos = some 0)
      ∧ (let t := after (.encode 1046#16 false) (k40 false .awaitingFrame 10 3)
         Memory.read 0 t.out = [zero, zero, zero] ∧ t.res.flags = some 0b10#2 ∧ t.ssePos = some 13)
      ∧ (let t := after (.encode 1046#16 false) (k40 false .awaitingGap 0 0)
         t.out = [] ∧ t.res.count = some 0#32 ∧ t.phase = some .awaitingGap) := by decide

/-! ### RESET and DESTROY (L2-R) -/

/-- R-1, R-6. -/
theorem test_reset :
    after .reset (k40 false .awaitingFrame 5 0) = Claim.returnedCode 0#2 (k40 false .awaitingFrame 0 0)
      ∧ (after .reset State.reset).fault = [.noInstance 0#32] := by decide

/-- R-4, R-5. -/
theorem test_destroy :
    (let t := after .destroy (k40 false .awaitingGap 0 0)
     t.inst = .destroyed ∧ t.sseLive = false ∧ t.gapLive = false ∧ t.phase = none ∧ t.res.code = some 0#2)
      ∧ (after .destroy { State.reset with inst := .destroyed }).fault = [.noInstance 0#32] := by decide

/-! ### The step -/

/-- P7 (first line) as the first command after power-on. -/
theorem test_step_with_fetch_word :
    step (State.reset.withFetchWord 32 0x04160024)
      = .next { State.reset with cmd := word 0x04160024#32, res := ⟨some 0#2, none, none, some 0xC982#16⟩,
                                 ended := .returned ⟨false, false, true⟩ } := by rfl

/-! ### Witnesses: a state and operands that meet the hypotheses of each statement, at the boundaries of its clauses -/

/-- Three symbols of `0x82C6` and neither flag: an answer the reference SSE never gives (41_orchestrator.md R134). -/
def shortAnswer : Answer := ⟨3, ⟨false, false⟩, [one, zero, zero], false⟩

/-- An answer that reports completion after three symbols: it breaks obligation 4 of 43_subencoders.md R201. -/
def falseAnswer : Answer := ⟨3, ⟨true, false⟩, [one, zero, zero], false⟩

/-- `NEITHER_POLICY = FallThrough`. -/
def fallThrough (s : State) : State := { s with par := { s.par with neitherPolicy := .fallThrough } }

theorem inv_k40 (bidir : Bool) (p : Phase) (pos : Fin 16) (free : Nat) (h : p = .awaitingGap → pos = 0) :
    Inv (k40 bidir p pos free) := by
  refine ⟨fun _ => ⟨?_, fun hp => ?_⟩, ⟨by simp [k40, State.reset, ResultRegs.noValue], by simp [k40, State.reset, ResultRegs.noValue]⟩,
    ⟨by simp [k40, State.reset], by simp [k40, State.reset]⟩, by simp [k40, State.reset, Memory.wf]⟩
  · exact ⟨⟨40000000#32, 600000#32, 50#32, bidir, rfl, by decide, by decide, rfl, rfl, rfl⟩, rfl, rfl, rfl, rfl, rfl⟩
  · simp only [k40, Option.some.injEq] at hp
    simp [k40, h hp]

theorem quiet_reference : Claim.Quiet none := fun _ h => by cases h

theorem witness_DecodeOfEncode :
    ∀ i ∈ [Instr.encode 0xFFFF#16 true, .reset, .destroy, .construct true, .constructNull, .buildFrame 0#16 false true],
      i.wellFormed = true := by decide

theorem witness_EncodeOfDecode : decode 0xFFFF0034#32 = .command (.buildFrame 65535#16 true true) := by decide

theorem witness_ReservedWordsAreRefused :
    (issued [word 0x23#32] State.reset).fault = [] ∧ (issued [word 0x23#32] State.reset).pending = word 0x23#32 :: [] ∧
      Claim.Reserved 0x23#32 ∧ Claim.Reserved 0x5#32 ∧ ¬ Claim.Reserved 0xFFFF0034#32 := by
  unfold Claim.Reserved Claim.usedBits; decide

theorem witness_AssembledLineKeepsItsOperands :
    (AsmLine.construct 4294967295 0 1 1).wellFormed = true ∧ (AsmLine.encode 65535 1).wellFormed = true ∧
      (AsmLine.buildFrame 65535 1 0).wellFormed = true ∧ (AsmLine.buildFrame 0 0 1).wellFormed = true ∧
      lineOf ['B', 'U', 'I', 'L', 'D', '_', 'F', 'R', 'A', 'M', 'E'] [2047, 1] = some (.buildFrame 2047 1 0) := by decide

theorem witness_StepExecutesTheDecodedCommand :
    (issued [word 0x1#32, word 0x2#32] (k40 false .awaitingGap 0 0)).fault = [] ∧
      (issued [word 0x1#32, word 0x2#32] (k40 false .awaitingGap 0 0)).pending = word 0x1#32 :: [word 0x2#32] ∧
      Instr.reset.wellFormed = true ∧ decode (word 0x1#32).cw = .command .reset := by decide

theorem witness_FaultedIdleAndRunningSteps :
    (State.reset.addFault (.noInstance 1#32)).fault = .noInstance 1#32 :: [] ∧ State.reset.fault = [] ∧
      State.reset.pending = [] := by decide

theorem witness_MarksAreSetAndNeverCleared :
    (∃ t, step (issued [word 0x2#32] (State.reset.markRefused .configNotAdmitted)) = .next t) ∧
      (State.reset.markRefused .configNotAdmitted).refused = true ∧
      ∃ t, exec .destroy (State.reset.addFault (.noInstance 1#32)) = .next t ∧
        .noInstance 1#32 ∈ (State.reset.addFault (.noInstance 1#32)).fault := ⟨⟨_, rfl⟩, rfl, _, rfl, by decide⟩

theorem witness_WireFrameRoundTrip : (2047#16).toNat ≤ 2047 := by decide

theorem witness_UnitBitsAreFrameBits : 0 < 16 ∧ 15 < 16 := by decide

theorem witness_ReferenceAnswersReportAFlag :
    15 < bits82C6.length ∧ bits82C6.length - 15 ≤ 1 ∧ 0 < bits82C6.length - 15 ∧ 1 = bits82C6.length - 15 := by decide

theorem witness_ReferenceCollaboratorsMeetTheContract : 0 < [gap].length ∧ 15 < bits82C6.length := by decide

theorem awaitsFrame_k40 (bidir : Bool) (pos : Fin 16) (free : Nat) :
    Claim.AwaitsFrame (k40 bidir .awaitingFrame pos free) bidir one zero pos := ⟨rfl, rfl, rfl, rfl, rfl, rfl, rfl⟩

theorem awaitsGap_k40 (bidir : Bool) (free : Nat) : Claim.AwaitsGap (k40 bidir .awaitingGap 0 free) bidir gap :=
  ⟨rfl, rfl, rfl, rfl, rfl, rfl⟩

/-- The clauses at 0, 15, 16, 17 and 18 free slots from position 0, and at 0, 1, 2 and 3 from position 15. -/
theorem witness_EncodeEmitsWhatFits (pos : Fin 16) (free : Nat) :
    let s := k40 true .awaitingFrame pos free
    Claim.AwaitsFrame s true one zero pos ∧ s.gapPos = some 0 ∧ s.sym.gap = some gap ∧ s.cmd.usual ∧ s.out.wf :=
  ⟨awaitsFrame_k40 true pos free, rfl, rfl, ⟨rfl, rfl, rfl⟩, State.reset_out_wf⟩

theorem witness_EncodeEmitsWhatFits_clauses :
    (k40 true .awaitingFrame 0 15).free < 16 - (0 : Fin 16).val ∧ (k40 true .awaitingFrame 0 16).free = 16 - (0 : Fin 16).val ∧
      16 - (0 : Fin 16).val < (k40 true .awaitingFrame 0 17).free ∧ (k40 true .awaitingFrame 15 0).free < 16 - (15 : Fin 16).val ∧
      (k40 true .awaitingFrame 15 1).free = 16 - (15 : Fin 16).val ∧ 16 - (15 : Fin 16).val < (k40 true .awaitingFrame 15 2).free := by
  decide

theorem witness_EncodeInGapPhaseEmitsTheGap (free : Nat) :
    let s := k40 false .awaitingGap 0 free
    Claim.AwaitsGap s false gap ∧ s.cmd.usual ∧ s.out.wf ∧ s.free = free :=
  ⟨awaitsGap_k40 false free, ⟨rfl, rfl, rfl⟩, State.reset_out_wf, rfl⟩

/-- The rows `{BufferFull}` and `{Complete, BufferFull}` (SE-3, SE-4) by the reference SSE. -/
theorem witness_FramePhaseOutcomeTable_full :
    let u := Claim.bitSymbols (Claim.frame 1046#16 false false) one zero
    (sseAnswer (k40 false .awaitingFrame 0 15) 0 u).flags = ⟨false, true⟩ ∧
      Claim.Contract 15 0 u (sseAnswer (k40 false .awaitingFrame 0 15) 0 u) ∧
      (sseAnswer (k40 false .awaitingFrame 0 16) 0 u).flags = ⟨true, true⟩ ∧
      Claim.Contract 16 0 u (sseAnswer (k40 false .awaitingFrame 0 16) 0 u) := by
  unfold Claim.Contract; decide

/-- The row `{}` under `Stop`, by another SSE that meets the contract. -/
theorem witness_FramePhaseOutcomeTable_neither :
    let s := answers (some shortAnswer) none (k40 false .awaitingFrame 0 10)
    let u := Claim.bitSymbols (Claim.frame 1046#16 false false) one zero
    Claim.AwaitsFrame s false one zero 0 ∧ shortAnswer = sseAnswer s 0 u ∧ Claim.Contract s.free 0 u shortAnswer ∧
      shortAnswer.flags = ⟨false, false⟩ ∧ s.par.neitherPolicy = .stop := by
  unfold Claim.Contract Claim.AwaitsFrame; decide

/-- The rows that go on to the gap phase: `{Complete}` (SE-5), and `{}` under `FallThrough`. -/
theorem witness_FramePhaseOutcomeTable_gap :
    (let s := k40 false .awaitingFrame 0 17
     let a := sseAnswer s 0 (Claim.bitSymbols (Claim.frame 1046#16 false false) one zero)
     let g := gapAnswer (Claim.afterSse 1046#16 false false 0 a s) 0 [gap]
     a.flags = ⟨true, false⟩ ∧ Claim.Contract (s.free - a.n) 0 [gap] g) ∧
    (let s := fallThrough (answers (some shortAnswer) none (k40 false .awaitingFrame 0 10))
     let g := gapAnswer (Claim.afterSse 1046#16 false false 0 shortAnswer s) 0 [gap]
     s.par.neitherPolicy = .fallThrough ∧ s.gapPos = some 0 ∧ s.sym.gap = some gap ∧
       Claim.Contract (s.free - shortAnswer.n) 0 [gap] g) := by
  unfold Claim.Contract; decide

theorem witness_GapPhaseOutcomeTable :
    let s := k40 false .awaitingGap 0 1
    Claim.AwaitsGap s false gap ∧ Claim.Contract s.free 0 [gap] (gapAnswer s 0 [gap]) := by
  unfold Claim.Contract Claim.AwaitsGap; decide

theorem witness_BrokenContractIsRecorded :
    (let s := answers (some falseAnswer) none (k40 false .awaitingFrame 0 10)
     let u := Claim.bitSymbols (Claim.frame 1046#16 false false) one zero
     Claim.AwaitsFrame s false one zero 0 ∧ falseAnswer = sseAnswer s 0 u ∧ ¬ Claim.Contract s.free 0 u falseAnswer) ∧
    (let s := answers none (some falseAnswer) (k40 false .awaitingGap 0 10)
     Claim.AwaitsGap s false gap ∧ falseAnswer = gapAnswer s 0 [gap] ∧ ¬ Claim.Contract s.free 0 [gap] falseAnswer) := by
  unfold Claim.Contract Claim.AwaitsFrame Claim.AwaitsGap; decide

/-- The SSE completes (SE-5); then the GAP breaks its contract. -/
theorem witness_BrokenContractIsRecorded_after_complete :
    let s := answers none (some falseAnswer) (k40 false .awaitingFrame 0 17)
    let u := Claim.bitSymbols (Claim.frame 1046#16 false false) one zero
    let a := sseAnswer s 0 u
    Claim.AwaitsFrame s false one zero 0 ∧ s.gapPos = some 0 ∧ s.sym.gap = some gap ∧ Claim.Contract s.free 0 u a ∧
      a.flags = ⟨true, false⟩ ∧ falseAnswer = gapAnswer (Claim.afterSse 1046#16 false false 0 a s) 0 [gap] ∧
      ¬ Claim.Contract (s.free - a.n) 0 [gap] falseAnswer :=
  ⟨awaitsFrame_k40 false 0 17, rfl, rfl, by unfold Claim.Contract; decide, by decide, by decide,
    by unfold Claim.Contract; decide⟩

/-- The SSE answers neither flag, and `FallThrough` goes on; then the GAP breaks its contract. -/
theorem witness_BrokenContractIsRecorded_after_neither :
    let s := fallThrough (answers (some shortAnswer) (some falseAnswer) (k40 false .awaitingFrame 0 10))
    let u := Claim.bitSymbols (Claim.frame 1046#16 false false) one zero
    Claim.AwaitsFrame s false one zero 0 ∧ s.gapPos = some 0 ∧ s.sym.gap = some gap ∧ shortAnswer = sseAnswer s 0 u ∧
      Claim.Contract s.free 0 u shortAnswer ∧ shortAnswer.flags = ⟨false, false⟩ ∧ s.par.neitherPolicy = .fallThrough ∧
      falseAnswer = gapAnswer (Claim.afterSse 1046#16 false false 0 shortAnswer s) 0 [gap] ∧
      ¬ Claim.Contract (s.free - shortAnswer.n) 0 [gap] falseAnswer :=
  ⟨⟨rfl, rfl, rfl, rfl, rfl, rfl, rfl⟩, rfl, rfl, rfl, by unfold Claim.Contract; decide, rfl, rfl, by decide,
    by unfold Claim.Contract; decide⟩

theorem witness_EncodeRebuildsTheFrame :
    let s := k40 true .awaitingGap 0 0
    s.inst = .live ∧ s.cmd.shared = false ∧ s.cfg.bidir = some true ∧
      exec (.encode 48#16 true) s = .next (after (.encode 48#16 true) s) := ⟨rfl, rfl, rfl, rfl⟩

theorem witness_GapPhaseIgnoresTheInput :
    let s := k40 false .awaitingGap 0 1
    Claim.AwaitsGap s false gap ∧ exec (.encode 48#16 true) s = .next (after (.encode 48#16 true) s) :=
  ⟨awaitsGap_k40 false 1, rfl⟩

theorem witness_EncodeMakesProgress (free : Nat) :
    let s := k40 false .awaitingFrame 15 free
    Inv s ∧ Unmarked s ∧ s.inst = .live ∧ s.cmd.usual ∧ s.free = free :=
  ⟨inv_k40 _ _ _ _ (fun h => by cases h), ⟨rfl, rfl⟩, rfl, ⟨rfl, rfl, rfl⟩, rfl⟩

theorem witness_CompleteLeavesAwaitingFrame :
    let s := k40 false .awaitingGap 0 1
    exec (.encode 0#16 false) s = .next (after (.encode 0#16 false) s) ∧
      Claim.reportsComplete (after (.encode 0#16 false) s) ∧ s.inst = .live ∧ Claim.Quiet s.cmd.sse ∧ Claim.Quiet s.cmd.gap :=
  ⟨rfl, by unfold Claim.reportsComplete; decide, rfl, quiet_reference, quiet_reference⟩

/-- The four clauses: into the gap phase, out of it by an ENCODE, and the moves of RESET and DESTROY. -/
theorem witness_PhaseMovesOnlyOnCompletion :
    (after (.encode 1046#16 false) (k40 false .awaitingFrame 0 16)).phase = some .awaitingGap ∧
      (after (.encode 1046#16 false) (k40 false .awaitingGap 0 1)).phase = some .awaitingFrame ∧
      (after .reset (k40 false .awaitingGap 0 0)).phase ≠ (k40 false .awaitingGap 0 0).phase ∧
      (after .destroy (k40 false .awaitingGap 0 0)).phase ≠ (k40 false .awaitingGap 0 0).phase := by decide

theorem witness_EncodeFrame :
    let s := k40 false .awaitingFrame 0 3
    exec (.encode 1046#16 false) s = .next (after (.encode 1046#16 false) s) ∧ 1 ≠ s.cmd.chan ∧ s.out.wf :=
  ⟨rfl, by decide, State.reset_out_wf⟩

theorem witness_CommandsWithoutInstanceFault :
    State.reset.inst ≠ .live ∧ State.reset.fault = [] ∧ (after .destroy (k40 false .awaitingGap 0 0)).inst ≠ .live ∧
      (after .destroy (k40 false .awaitingGap 0 0)).fault = [] := by decide

/-- The output buffer is shared. -/
def sharedBuffer (s : State) : State := { s with cmd := { s.cmd with shared := true } }

theorem witness_SharedBufferIsRefused :
    (sharedBuffer (k40 false .awaitingFrame 0 17)).inst = .live ∧ (sharedBuffer (k40 false .awaitingFrame 0 17)).cmd.shared = true := by
  decide

theorem witness_ResetAndDestroy :
    let s := k40 false .awaitingFrame 5 0
    s.inst = .live ∧ Claim.Quiet s.cmd.sse ∧ Claim.Quiet s.cmd.gap := ⟨rfl, quiet_reference, quiet_reference⟩

theorem witness_MisbehavingResetOrDestroyFaults :
    let s := answers none (some falseAnswer) (k40 false .awaitingGap 0 0)
    s.inst = .live ∧ falseAnswer.symbols ≠ [] ∧ Claim.Quiet s.cmd.sse ∧ s.cmd.gap = some falseAnswer ∧
      (answers (some falseAnswer) none s).cmd.sse = some falseAnswer :=
  ⟨rfl, by decide, quiet_reference, rfl, rfl⟩

theorem witness_EncodeAfterResetIsLikeAfterConstruct :
    let s := k40 true .awaitingFrame 5 0
    let d := after .destroy s
    let c := { Command.blank with res := 40000000#32, baud := 600000#32, delay := 50#32 }
    Inv s ∧ s.fault = [] ∧ s.inst = .live ∧ s.cfg = ⟨some 40000000#32, some 600000#32, some 50#32, some true⟩ ∧ s.cmd.usual ∧
      exec .reset s = .next (after .reset s) ∧ exec .destroy s = .next d ∧
      exec (.construct true) { d with cmd := c } = .next (after (.construct true) { d with cmd := c }) ∧ c.shared = false :=
  ⟨inv_k40 _ _ _ _ (fun h => by cases h), rfl, rfl, rfl, ⟨rfl, rfl, rfl⟩, rfl, rfl, rfl, rfl⟩

/-- TM-15 and TM-16: the largest accepted period and the next one. -/
theorem witness_Construct :
    (let s := port 43778#32 1#32 0#32 true true true State.reset
     s.inst ≠ .live ∧ s.cmd.res ≠ 0 ∧ s.cmd.baud ≠ 0 ∧
       ¬ Claim.TooLong s.par s.cmd.res.toNat s.cmd.baud.toNat s.cmd.delay.toNat ∧ s.cmd.a1 = true ∧ s.cmd.a2 = true ∧
       s.cmd.a3 = true) ∧
    Claim.TooLong Params.defaults 43779 1 0 := by
  unfold Claim.TooLong; decide

/-- CO-6, CO-2, CO-3, TM-18. -/
theorem witness_ConstructNotAccepted :
    (port 40000000#32 600000#32 50#32 true true false State.reset).cmd.a3 = false ∧
      ¬ Claim.TooLong Params.defaults 40000000 600000 50 ∧ (port 0#32 600000#32 50#32 true true true State.reset).cmd.res = 0 ∧
      (port 40000000#32 0#32 50#32 true true true State.reset).cmd.baud = 0 ∧ Claim.TooLong Params.defaults 1000000 600000 65536 := by
  unfold Claim.TooLong; decide

/-- CO-9's word and its neighbours: reserved, configured, null; on an absent and on a live block. -/
theorem witness_ConstructChecksInOrder :
    (0x63#32 : BitVec 32).extractLsb' 0 4 = 3#4 ∧ ¬ Claim.Reserved 0x63#32 ∧ (0x63#32 : BitVec 32).getLsbD 6 = true ∧
      (0x03#32 : BitVec 32).extractLsb' 0 4 = 3#4 ∧ ¬ Claim.Reserved 0x03#32 ∧ (0x03#32 : BitVec 32).getLsbD 6 = false ∧
      (0x23#32 : BitVec 32).extractLsb' 0 4 = 3#4 ∧ Claim.Reserved 0x23#32 ∧
      (issued [word 0x63#32] State.reset).pending = word 0x63#32 :: [] ∧ (issued [word 0x63#32] State.reset).fault = [] ∧
      (k40 false .awaitingFrame 0 0).inst = .live ∧ State.reset.inst ≠ .live := by
  unfold Claim.Reserved Claim.usedBits; decide

theorem witness_GapWrapIsNeverAccepted :
    Params.defaults.durBits ≤ 31 ∧ fitsDurations Params.defaults (deriveTiming 1000000 600000 65535) = true := by decide

theorem witness_ZeroDurationSymbols :
    999999 < 1000000 ∧ (deriveTiming 1000000 500000 3).period ≤ 2 ∧ (deriveTiming 1000000 600000 3).period ≤ 1 ∧
      40000000 < 80000000 := by decide

theorem witness_ConfigurationIsFixedWhileLive :
    let s := k40 false .awaitingFrame 0 3
    s.inst = .live ∧ exec .reset s = .next (after .reset s) ∧ (after .reset s).inst = .live := ⟨rfl, rfl, rfl⟩

theorem witness_OnlyConstructAndDestroyWriteInst :
    let s := port 40000000#32 600000#32 50#32 true true true State.reset
    exec (.construct true) s = .next (after (.construct true) s) ∧ (after (.construct true) s).inst ≠ s.inst ∧
      (after .destroy (k40 false .awaitingGap 0 0)).inst ≠ (k40 false .awaitingGap 0 0).inst := ⟨rfl, by decide, by decide⟩

/-- ResultCodes and HostReadsWhatTheCommandWrote: a command of each return. -/
theorem witness_ResultCodes :
    (after (.encode 0#16 false) (k40 false .awaitingGap 0 1)).ended = .returned ⟨true, true, false⟩ ∧
      (after (.buildFrame 0#16 false false) State.reset).ended = .returned ⟨false, false, true⟩ ∧
      (after .constructNull State.reset).ended = .returned ⟨false, false, false⟩ := by decide

theorem witness_OtherCommandsStoreNothing :
    let s := k40 false .awaitingFrame 5 3
    (∀ thr tlm, Instr.destroy ≠ .encode thr tlm) ∧ Claim.Quiet s.cmd.sse ∧ Claim.Quiet s.cmd.gap ∧
      exec .destroy s = .next (after .destroy s) := ⟨(by intro _ _ h; cases h), quiet_reference, quiet_reference, rfl⟩

theorem witness_OutputBuffersAreNeverRead :
    let s := k40 false .awaitingFrame 0 3
    s.out.wf ∧ Memory.wf [(0, [gap]), (7, [one])] ∧ exec (.encode 0#16 false) s = .next (after (.encode 0#16 false) s) :=
  ⟨State.reset_out_wf, by unfold Memory.wf; decide, rfl⟩

theorem witness_StepKeepsTheInvariant :
    Inv (k40 false .awaitingGap 0 0) ∧ ∃ t, step (k40 false .awaitingGap 0 0) = .next t :=
  ⟨inv_k40 _ _ _ _ (fun _ => rfl), _, rfl⟩

/-- O-3: 16 slots, then 1. -/
theorem witness_SplitFrameEqualsWholeFrame :
    let s := k40 false .awaitingFrame 0 0
    Inv s ∧ s.fault = [] ∧ s.inst = .live ∧ s.phase = some .awaitingFrame ∧ s.ssePos = some 0 ∧ (∀ f ∈ [16, 1], 1 ≤ f) ∧
      ((encodeSeries 1046#16 false 0 [16, 1] s).map fun r => (r.1, r.2.hostReads.flags)) = some (17, some 0b11#2) ∧
      ((encodeSeries 1046#16 false 0 [16] s).map fun r => r.2.hostReads.flags) = some (some 0b10#2) :=
  ⟨inv_k40 _ _ _ _ (fun h => by cases h), rfl, rfl, rfl, rfl, by decide, by decide, by decide⟩

theorem witness_FrameCompletesWithinSeventeen :
    let s := k40 false .awaitingFrame 0 0
    Inv s ∧ s.fault = [] ∧ s.inst = .live ∧ s.phase = some .awaitingFrame ∧ s.ssePos = some 0 ∧
      (∀ f ∈ List.replicate 17 1, 1 ≤ f) ∧ 17 ≤ (List.replicate 17 1).length :=
  ⟨inv_k40 _ _ _ _ (fun h => by cases h), rfl, rfl, rfl, rfl, by decide, by decide⟩

theorem witness_FullBufferNeverProgresses :
    let s := k40 false .awaitingGap 0 0
    Inv s ∧ s.fault = [] ∧ s.inst = .live := ⟨inv_k40 _ _ _ _ (fun _ => rfl), rfl, rfl⟩

theorem witness_BufferSizing :
    let s := k40 true .awaitingFrame 0 0
    Inv s ∧ s.fault = [] ∧ s.inst = .live ∧ s.phase = some .awaitingFrame ∧ s.ssePos = some 0 :=
  ⟨inv_k40 _ _ _ _ (fun h => by cases h), rfl, rfl, rfl, rfl⟩

/-- P5: 8 slots, then 64. -/
theorem witness_ChangedInputMixesTwoFrames :
    let s := k40 false .awaitingFrame 0 8
    let c := { Command.blank with free := 64 }
    Claim.AwaitsFrame s false one zero 0 ∧ s.gapPos = some 0 ∧ s.sym.gap = some gap ∧ s.cmd.usual ∧ s.out.wf ∧ s.fault = [] ∧
      s.free < 16 ∧ c.usual ∧ c.chan = s.cmd.chan ∧ 17 - s.free ≤ c.free ∧
      exec (.encode 1046#16 false) s = .next (after (.encode 1046#16 false) s) :=
  ⟨awaitsFrame_k40 false 0 8, rfl, rfl, ⟨rfl, rfl, rfl⟩, State.reset_out_wf, rfl, by decide, ⟨rfl, rfl, rfl⟩, rfl, by decide, rfl⟩

end Sys2Proof.Tests
end

section
/-! PROOFS. What the commands other than ENCODE leave as it was (00_scope.md R11, 20_memory.md R55). -/

namespace Sys2Proof.Machine

/-- The model's check of a delegate's reset or destroy is the specification's: nothing appended, nothing else done. -/
theorem quiet_eq_true_iff (a : Option Answer) : quiet a = true ↔ Claim.Quiet a := by
  cases a <;> simp [quiet, Claim.Quiet]

/-- From `s` to `t` no symbol is stored and no input is touched: output buffers, free space, parameters and the host's
commands are the same. -/
def StoresNothing (s t : State) : Prop :=
  t.out = s.out ∧ t.free = s.free ∧ t.par = s.par ∧ t.bitOrder = s.bitOrder ∧ t.cmd = s.cmd ∧ t.pending = s.pending

theorem execReset_storesNothing {s t : State} (hs : quiet s.cmd.sse = true) (hg : quiet s.cmd.gap = true)
    (h : execReset s = .next t) : StoresNothing s t := by
  obtain ⟨-, rfl⟩ | ⟨-, hs', -⟩ | ⟨-, -, hg', -⟩ | ⟨-, -, -, rfl⟩ := execReset_cases h
  · simp [StoresNothing]
  · simp [hs] at hs'
  · simp [hg] at hg'
  · simp [StoresNothing]

theorem execDestroy_storesNothing {s t : State} (hs : quiet s.cmd.sse = true) (hg : quiet s.cmd.gap = true)
    (h : execDestroy s = .next t) : StoresNothing s t := by
  obtain ⟨-, rfl⟩ | ⟨-, hs', -⟩ | ⟨-, -, hg', -⟩ | ⟨-, -, -, rfl⟩ := execDestroy_cases h
  · simp [StoresNothing]
  · simp [hs] at hs'
  · simp [hg] at hg'
  · simp [StoresNothing]

theorem execConstruct_storesNothing {bidir : Bool} {s t : State} (h : execConstruct bidir s = .next t) :
    StoresNothing s t := by
  obtain ⟨-, rfl⟩ | ⟨-, rfl⟩ | ⟨-, rfl⟩ | ⟨-, -, -, -, rfl⟩ := execConstruct_cases h <;> simp [StoresNothing]

theorem execConstructNull_storesNothing {s t : State} (h : execConstructNull s = .next t) : StoresNothing s t := by
  obtain ⟨-, rfl⟩ | ⟨-, rfl⟩ := execConstructNull_cases h <;> simp [StoresNothing]

theorem execBuildFrame_storesNothing {thr : Half} {tlm bidir : Bool} {s t : State}
    (h : execBuildFrame thr tlm bidir s = .next t) : StoresNothing s t := by
  rw [execBuildFrame_eq] at h
  cases h
  simp [StoresNothing]

/-- Settles O52: no command but ENCODE reaches an append, as quiet collaborators leave RESET and DESTROY no misbehaving call. -/
theorem otherCommandsStoreNothing : Obligations.OtherCommandsStoreNothing := by
  intro i s t hi hsse hgap h
  have hs := (quiet_eq_true_iff _).mpr hsse
  have hg := (quiet_eq_true_iff _).mpr hgap
  cases i with
  | encode thr tlm => exact absurd rfl (hi thr tlm)
  | reset => exact execReset_storesNothing hs hg h
  | destroy => exact execDestroy_storesNothing hs hg h
  | construct bidir => exact execConstruct_storesNothing h
  | constructNull => exact execConstructNull_storesNothing h
  | buildFrame thr tlm bidir => exact execBuildFrame_storesNothing h

end Sys2Proof.Machine
end

section
/-! PROOFS. The invariant of the block (10_state.md R40): it holds at power-on, and every command keeps it. A command runs on a
`Working` block, whose marks, result registers and buffers are in order; each of its endings then gives the invariant back. -/

namespace Sys2Proof.Machine

/-! ### A block at work, and its endings -/

/-- What holds of a block throughout a command, whatever its other registers hold. -/
def Working (s : State) : Prop := s.fault = [] ∧ ResultsInv s ∧ s.out.wf

theorem Inv.working {s : State} (h : Inv s) (hf : s.fault = []) : Working s := by
  obtain ⟨-, hres, -, hout⟩ := h
  exact ⟨hf, hres, hout⟩

/-- `Working` reads the fault mark, the result registers and the output buffers alone. -/
theorem Working.congr {s t : State} (h : Working s) (hf : t.fault = s.fault) (hr : t.res = s.res) (ho : t.out = s.out) :
    Working t := by
  obtain ⟨h₁, h₂, h₃⟩ := h
  exact ⟨hf.trans h₁, by rwa [ResultsInv, hr], by rwa [ho]⟩

theorem Working.appendAll {s : State} (h : Working s) (c : Chan) (ys : List Symbol) : Working (s.appendAll c ys) := by
  obtain ⟨hf, hres, hout⟩ := h
  exact ⟨by simpa using hf, by simpa [ResultsInv] using hres, State.appendAll_out_wf hout c ys⟩

/-- A fault leaves nothing to show of the other registers (43_subencoders.md R201). -/
theorem Working.inv_addFault {s : State} (h : Working s) {f : Fault} (hf : ∀ r, f ≠ .unwrittenRead r) :
    Inv (s.addFault f) := by
  obtain ⟨hnone, hres, hout⟩ := h
  have hfault : (s.addFault f).fault = [f] := by simp [hnone]
  refine ⟨fun h => ?_, hres, ?_, hout⟩
  · cases hfault.symm.trans h
  · rw [FaultInv, hfault]
    exact ⟨Nat.le_refl 1, fun r h => hf r (List.mem_singleton.1 h).symm⟩

theorem Working.inv_markRefused {s : State} (h : Working s) (hl : LifecycleInv s) (hp : PhaseInv s) (r : Refusal) :
    Inv (s.markRefused r) := by
  obtain ⟨hnone, hres, hout⟩ := h
  exact ⟨fun _ => ⟨hl, hp⟩, hres, by simp [FaultInv, hnone], hout⟩

theorem Working.inv_writeResults {s : State} (h : Working s) (hl : LifecycleInv s) (hp : PhaseInv s) {k : BitVec 2}
    {n : Option Word} (hk : k ≠ 3#2) (hn : ∀ x, n = some x → x.toNat ≤ 17) (f : Option (BitVec 2)) (w : Option Half) :
    Inv (s.writeResults k n f w) := by
  obtain ⟨hnone, ⟨-, hcount⟩, hout⟩ := h
  refine ⟨fun _ => ⟨hl, hp⟩, ⟨by simpa using hk, fun x hx => ?_⟩, by simp [FaultInv, hnone], hout⟩
  cases n with
  | none => exact hcount x hx
  | some y => exact hn x hx

/-- A return that writes no count. -/
theorem Working.inv_return {s : State} (h : Working s) (hl : LifecycleInv s) (hp : PhaseInv s) {k : BitVec 2} (hk : k ≠ 3#2)
    (w : Option Half) : Inv (s.writeResults k none none w) :=
  h.inv_writeResults hl hp hk (by simp) none w

/-- The return of ENCODE: at most the 16 symbols of the frame and the gap (41_orchestrator.md R137). -/
theorem Working.inv_returnCount {s : State} (h : Working s) (hl : LifecycleInv s) (hp : PhaseInv s) {n : Nat} (hn : n ≤ 17)
    (f : FlagSet) : Inv (s.writeResults codeOk (some (BitVec.ofNat 32 n)) (some f.encode) none) := by
  refine h.inv_writeResults hl hp (by decide) (fun x hx => ?_) _ _
  cases hx
  rw [BitVec.toNat_ofNat]
  exact (Nat.mod_le n _).trans hn

theorem misbehaved_next {d : Delegate} {a : Option Answer} {s t : State} (h : misbehaved d a s = .next t) :
    t = (s.appendAll s.opChan (answerSymbols a)).addFault
      (.collaboratorContractViolation s.cmd.cw d (answerCount a) (answerFlags a)) := by
  simpa [misbehaved, eq_comm] using h

theorem Working.inv_misbehaved {s t : State} (h : Working s) {d : Delegate} {a : Option Answer}
    (ht : misbehaved d a s = .next t) : Inv t := by
  rw [misbehaved_next ht]
  exact (h.appendAll _ _).inv_addFault (by simp)

/-! ### What a full block can be read for -/

/-- No register that ENCODE reads, but the frame it has just built, lacks a value on a live block of the invariant. -/
theorem InstanceFull.reads {s : State} (h : InstanceFull s) :
    s.cfg.bidir ≠ none ∧ s.phase ≠ none ∧ (s.ssePos ≠ none ∧ s.sym.bit1 ≠ none ∧ s.sym.bit0 ≠ none) ∧
      (s.gapPos ≠ none ∧ s.sym.gap ≠ none) := by
  obtain ⟨⟨res, baud, delay, bidir, hcfg, -, -, -, hsym, -⟩, hphase, -, hsse, -, hgap⟩ := h
  rw [Option.isSome_iff_ne_none] at hphase hsse hgap
  simp [hcfg, hsym, cfgOf, symbolRegsOf, hphase, hsse, hgap]

theorem phaseAfterGap_eq_awaitingGap {f : FlagSet} {p : Phase} (h : phaseAfterGap f p = .awaitingGap) : p = .awaitingGap := by
  unfold phaseAfterGap at h
  split at h
  · cases h
  · exact h

/-- The frame phase leaves for the gap only with its unit complete, and then the SSE stands at 0 again (41_orchestrator.md R139,
43_subencoders.md R201). -/
theorem nextSsePos_of_phaseAfterFrame {F : Nat} {pos : Fin 16} {unit : List Symbol} {a : Answer} (hunit : unit.length = 16)
    (hc : contractMet F pos.val unit a = true) (h : phaseAfterFrame a.flags .awaitingFrame = .awaitingGap) :
    nextSsePos pos a.n = 0 := by
  obtain ⟨-, -, -, hcomplete⟩ := contractMet_count hc
  unfold phaseAfterFrame at h
  split at h
  · next hf =>
    rw [hcomplete, decide_eq_true_eq, hunit] at hf
    exact nextSsePos_complete hf
  · cases h

/-! ### The phases of ENCODE -/

/-- The gap phase, entered with `n` symbols of the frame phase counted and `p` for the phase it keeps where the gap does not
complete. -/
theorem gapPhase_inv {n : Nat} {p : Phase} {s t : State} (hw : Working s) (hi : s.inst = .live) (hfull : InstanceFull s)
    (hn : n ≤ 16) (hp : p = .awaitingGap → s.ssePos = some 0) (h : gapPhase n p s = .next t) : Inv t := by
  obtain ⟨-, -, ⟨hsse, -, -⟩, hpos, hgap⟩ := hfull.reads
  obtain ⟨r, -, hnone⟩ | ⟨g, a, -, -, -, ⟨hc, rfl⟩ | ⟨-, rfl⟩⟩ := gapPhase_cases h
  · exact (hnone.elim hpos hgap).elim
  · obtain ⟨-, ha, -, -⟩ := contractMet_count hc
    refine Working.inv_returnCount ?_ ?_ ?_ ?_ _
    · exact (hw.appendAll s.opChan a.symbols).congr rfl rfl rfl
    · rw [lifecycleInv_of_live (by simpa using hi)]
      apply hfull.transfer <;> simp [Option.isSome_iff_ne_none, hsse]
    · intro hgap
      simp only [State.setPhase_phase, Option.some.injEq] at hgap
      simpa using hp (phaseAfterGap_eq_awaitingGap hgap)
    · simp only [List.length_singleton] at ha
      omega
  · exact (hw.appendAll _ _).inv_addFault (by simp)

theorem framePhase_inv {s t : State} (hw : Working s) (hi : s.inst = .live) (hfull : InstanceFull s)
    (hframe : s.frameReg ≠ none) (h : framePhase s = .next t) : Inv t := by
  obtain ⟨-, -, ⟨hpos, hbit1, hbit0⟩, hgap, -⟩ := hfull.reads
  obtain ⟨r, -, hnone⟩ | ⟨pos, unit, a, u, -, hunit, -, hu, h⟩ := framePhase_cases h
  · exact absurd hnone (by simp [hpos, hframe, hbit1, hbit0])
  have hwu : Working u := hu ▸ (hw.appendAll s.opChan a.symbols).congr rfl rfl rfl
  have hiu : u.inst = .live := by simpa [hu] using hi
  have hfullu : InstanceFull u := by
    apply hfull.transfer <;> simp [hu, Option.isSome_iff_ne_none, hgap]
  obtain ⟨-, rfl⟩ | ⟨hc, h⟩ := h
  · exact (hw.appendAll _ _).inv_addFault (by simp)
  have hsse : phaseAfterFrame a.flags .awaitingFrame = .awaitingGap → u.ssePos = some 0 := fun hp => by
    simpa [hu] using nextSsePos_of_phaseAfterFrame hunit hc hp
  have hn : a.n ≤ 16 := by
    obtain ⟨-, ha, -, -⟩ := contractMet_count hc
    omega
  obtain ⟨f, -, rfl⟩ | ⟨-, h⟩ := h
  · refine hwu.inv_returnCount ((lifecycleInv_of_live hiu).2 hfullu) (fun hp => hsse ?_) (by omega) f
    simpa [hu] using hp
  · exact gapPhase_inv hwu hiu hfullu hn hsse h

/-! ### Every command -/

theorem execEncode_inv {thr : Half} {tlm : Bool} {s t : State} (hw : Working s) (hl : LifecycleInv s) (hp : PhaseInv s)
    (h : execEncode thr tlm s = .next t) : Inv t := by
  obtain ⟨-, rfl⟩ | ⟨-, -, rfl⟩ | ⟨hi, -, hnone, -⟩ | ⟨b, hi, -, -, h⟩ := execEncode_cases h
  · exact hw.inv_addFault (by simp)
  · exact hw.inv_markRefused hl hp _
  · obtain ⟨hbidir, -⟩ := ((lifecycleInv_of_live hi).1 hl).reads
    exact absurd hnone hbidir
  have hfull := (lifecycleInv_of_live hi).1 hl
  have hwu : Working (s.writeFrame (wireFrame thr tlm b)) := hw.congr rfl rfl rfl
  obtain ⟨hnone, -⟩ | ⟨-, h⟩ | ⟨hgap, h⟩ := h
  · obtain ⟨-, hphase, -⟩ := hfull.reads
    exact absurd hnone hphase
  · exact framePhase_inv hwu hi hfull (by simp) h
  · exact gapPhase_inv hwu hi hfull (by omega) (fun _ => hp hgap) h

theorem execReset_inv {s t : State} (hw : Working s) (hl : LifecycleInv s) (h : execReset s = .next t) : Inv t := by
  obtain ⟨-, rfl⟩ | ⟨-, -, h⟩ | ⟨-, -, -, h⟩ | ⟨hi, -, -, rfl⟩ := execReset_cases h
  · exact hw.inv_addFault (by simp)
  · exact hw.inv_misbehaved h
  · exact (hw.congr rfl rfl rfl : Working (s.setSsePos 0)).inv_misbehaved h
  · refine Working.inv_return ?_ ?_ ?_ (by decide) none
    · exact hw.congr rfl rfl rfl
    · rw [lifecycleInv_of_live hi] at hl
      rw [lifecycleInv_of_live (by simpa using hi)]
      exact hl.transfer rfl rfl rfl rfl rfl rfl rfl rfl rfl
    · simp [PhaseInv]

/-- What DESTROY releases is every register that CONSTRUCT installed (41_orchestrator.md R141). -/
theorem instanceEmpty_releaseStorage (s : State) : InstanceEmpty s.dropSse.dropGap.releaseStorage :=
  ⟨rfl, rfl, rfl, rfl, rfl, rfl, rfl, rfl, rfl⟩

theorem execDestroy_inv {s t : State} (hw : Working s) (h : execDestroy s = .next t) : Inv t := by
  obtain ⟨-, rfl⟩ | ⟨-, -, h⟩ | ⟨-, -, -, h⟩ | ⟨-, -, -, rfl⟩ := execDestroy_cases h
  · exact hw.inv_addFault (by simp)
  · exact hw.inv_misbehaved h
  · exact (hw.congr rfl rfl rfl : Working s.dropSse).inv_misbehaved h
  · refine Working.inv_return ?_ ?_ ?_ (by decide) none
    · exact hw.congr rfl rfl rfl
    · exact instanceEmpty_releaseStorage s
    · simp [PhaseInv]

/-- An accepted configuration makes the registers of a live block (42_construction_timing.md R170 to R178). -/
theorem instanceFull_install {s : State} (bidir : Bool) (hres : s.opRes ≠ 0) (hbaud : s.opBaud ≠ 0)
    (hfits : fitsDurations s.par (deriveTiming s.opRes s.opBaud s.opDelay) = true) :
    InstanceFull (s.install (cfgOf s.cmd.res s.cmd.baud s.cmd.delay bidir) (timingRegsOf (deriveTiming s.opRes s.opBaud s.opDelay))
      (symbolRegsOf (deriveTiming s.opRes s.opBaud s.opDelay))) := by
  refine ⟨⟨s.cmd.res, s.cmd.baud, s.cmd.delay, bidir, rfl, fun h => hres ?_, fun h => hbaud ?_, rfl, rfl, hfits⟩,
    rfl, rfl, rfl, rfl, rfl⟩
  · simp [State.opRes, h]
  · simp [State.opBaud, h]

theorem execConstruct_inv {bidir : Bool} {s t : State} (hw : Working s) (hl : LifecycleInv s) (hp : PhaseInv s)
    (h : execConstruct bidir s = .next t) : Inv t := by
  obtain ⟨-, rfl⟩ | ⟨-, rfl⟩ | ⟨-, rfl⟩ | ⟨-, hres, hbaud, hfits, rfl⟩ := execConstruct_cases h
  · exact hw.inv_addFault (by simp)
  · exact hw.inv_markRefused hl hp _
  · exact hw.inv_return hl hp (by decide) none
  · refine Working.inv_return ?_ ?_ ?_ (by decide) none
    · exact hw.congr rfl rfl rfl
    · exact (lifecycleInv_of_live rfl).2 (instanceFull_install bidir hres hbaud hfits)
    · simp [PhaseInv]

theorem execConstructNull_inv {s t : State} (hw : Working s) (hl : LifecycleInv s) (hp : PhaseInv s)
    (h : execConstructNull s = .next t) : Inv t := by
  obtain ⟨-, rfl⟩ | ⟨-, rfl⟩ := execConstructNull_cases h
  · exact hw.inv_addFault (by simp)
  · exact hw.inv_return hl hp (by decide) none

theorem execBuildFrame_inv {thr : Half} {tlm bidir : Bool} {s t : State} (hw : Working s) (hl : LifecycleInv s) (hp : PhaseInv s)
    (h : execBuildFrame thr tlm bidir s = .next t) : Inv t := by
  rw [execBuildFrame_eq] at h
  cases h
  exact hw.inv_return hl hp (by decide) _

theorem exec_inv {i : Instr} {s t : State} (hw : Working s) (hl : LifecycleInv s) (hp : PhaseInv s) (h : exec i s = .next t) :
    Inv t := by
  cases i with
  | encode thr tlm => exact execEncode_inv hw hl hp h
  | reset => exact execReset_inv hw hl h
  | destroy => exact execDestroy_inv hw h
  | construct bidir => exact execConstruct_inv hw hl hp h
  | constructNull => exact execConstructNull_inv hw hl hp h
  | buildFrame thr tlm bidir => exact execBuildFrame_inv hw hl hp h

/-- Settles O55: a step that answers a next state starts without a fault, so the whole invariant stands when the block takes a
command, and it is idle, refuses a reserved word or runs a command that keeps it. -/
theorem stepKeepsTheInvariant : Obligations.StepKeepsTheInvariant := by
  intro s t hs h
  obtain ⟨hf, ⟨-, rfl⟩ | ⟨c, rest, -, h⟩⟩ := step_cases h
  · exact hs
  obtain ⟨hl, hp⟩ : LifecycleInv (s.accept c rest) ∧ PhaseInv (s.accept c rest) := hs.1 hf
  have hw : Working (s.accept c rest) := (hs.working hf).congr rfl rfl rfl
  obtain ⟨-, rfl⟩ | ⟨i, -, h⟩ := h
  · exact hw.inv_markRefused hl hp _
  · exact exec_inv hw hl hp h

/-- Settles O54: at power-on the block is absent and its registers hold no value, nothing is marked and every buffer is empty. -/
theorem resetStateMeetsTheInvariant : Obligations.ResetStateMeetsTheInvariant := by
  have hempty : LifecycleInv State.reset := ⟨rfl, rfl, rfl, rfl, rfl, rfl, rfl, rfl, rfl⟩
  have hphase : PhaseInv State.reset := fun h => by cases h
  have hresults : ResultsInv State.reset := ⟨by decide, fun _ h => by cases h⟩
  have hfault : FaultInv State.reset := ⟨by decide, fun _ => List.not_mem_nil⟩
  exact ⟨fun _ => ⟨hempty, hphase⟩, hresults, hfault, State.reset_out_wf⟩

/-- Settles O10: the power-on column of 10_state.md R40, register by register. -/
theorem powerOnState : Obligations.PowerOnState :=
  ⟨rfl, rfl, rfl, rfl, rfl, rfl, rfl, rfl, rfl, rfl, rfl, rfl, rfl, rfl⟩

end Sys2Proof.Machine
end

section
/-! PROOFS. How a command ends (10_state.md R35, R39; 60_exceptions.md R240): it works without touching a mark or a result register, and
then faults, is refused, or returns with the result registers its rule names. The frame of ENCODE and the rules on the marks, on
`INST` and on what the host reads follow. -/

namespace Sys2Proof.Machine

/-! ### Endings -/

/-- Which of `RES_COUNT`, `RES_FLAGS` and `RES_FRAME` the rule of a command names (10_state.md R35). -/
def resultMask : Instr → ResultMask
  | .encode _ _ => { count := true, flags := true, frame := false }
  | .buildFrame _ _ _ => { count := false, flags := false, frame := true }
  | _ => { count := false, flags := false, frame := false }

/-- The endings of command `i`, its work having led to the state `u`. -/
inductive Ends (i : Instr) (u : State) : State → Prop
  | fault (f : Fault) : Ends i u (u.addFault f)
  | refusal (r : Refusal) : Ends i u (u.markRefused r)
  | returned (k : BitVec 2) {n : Option Word} {f : Option (BitVec 2)} {w : Option Half}
    (h : { count := n.isSome, flags := f.isSome, frame := w.isSome } = resultMask i) : Ends i u (u.writeResults k n f w)

/-- No ending takes a mark away. -/
theorem Ends.marks {i : Instr} {u t : State} (h : Ends i u t) :
    (∀ f ∈ u.fault, f ∈ t.fault) ∧ (u.refused = true → t.refused = true) := by
  cases h with
  | fault f => exact ⟨fun g hg => State.mem_addFault.2 (.inr hg), id⟩
  | refusal r => exact ⟨fun g hg => hg, fun _ => rfl⟩
  | returned k h => exact ⟨fun g hg => hg, id⟩

/-- An ending writes the marks and the result registers alone. -/
theorem Ends.exists_update {i : Instr} {u t : State} (h : Ends i u t) :
    ∃ res fault refused ended, t = { u with res := res, fault := fault, refused := refused, ended := ended } := by
  cases h with
  | fault f => exact ⟨_, _, _, _, rfl⟩
  | refusal r => exact ⟨_, _, _, _, rfl⟩
  | returned k h => exact ⟨_, _, _, _, rfl⟩

/-- Only BUILD_FRAME writes `RES_FRAME`. -/
theorem Ends.encode_frame {thr : Half} {tlm : Bool} {u t : State} (h : Ends (.encode thr tlm) u t) : t.res.frame = u.res.frame := by
  cases h with
  | fault f => rfl
  | refusal r => rfl
  | @returned k n f w hmask =>
    have hw : w = none := by simpa [resultMask] using congrArg ResultMask.frame hmask
    rw [hw]
    rfl

/-- After a return the host reads what the command wrote, and no value elsewhere (10_state.md R35). -/
@[simp] theorem State.hostReads_writeResults (k : BitVec 2) (n : Option Word) (f : Option (BitVec 2)) (w : Option Half) (s : State) :
    (s.writeResults k n f w).hostReads = { code := some k, count := n, flags := f, frame := w } := by
  cases n <;> cases f <;> cases w <;> rfl

/-! ### The work of ENCODE -/

/-- What ENCODE leaves as it was while it works, from `s` to `u`: all but `FRAME_REG`, `PHASE`, the two positions, the free space
and the end of its own channel's buffer (10_state.md R42, 20_memory.md R55). -/
structure EncodeWork (s u : State) : Prop where
  par : u.par = s.par
  inst : u.inst = s.inst
  cfg : u.cfg = s.cfg
  tim : u.tim = s.tim
  sym : u.sym = s.sym
  bitOrder : u.bitOrder = s.bitOrder
  sseLive : u.sseLive = s.sseLive
  gapLive : u.gapLive = s.gapLive
  res : u.res = s.res
  fault : u.fault = s.fault
  refused : u.refused = s.refused
  cmd : u.cmd = s.cmd
  pending : u.pending = s.pending
  otherChannels : ∀ c, c ≠ s.cmd.chan → Memory.read c u.out = Memory.read c s.out
  ownChannel : s.out.wf → u.out.wf ∧ Memory.read s.cmd.chan s.out <+: Memory.read s.cmd.chan u.out

theorem EncodeWork.refl (s : State) : EncodeWork s s where
  par := rfl
  inst := rfl
  cfg := rfl
  tim := rfl
  sym := rfl
  bitOrder := rfl
  sseLive := rfl
  gapLive := rfl
  res := rfl
  fault := rfl
  refused := rfl
  cmd := rfl
  pending := rfl
  otherChannels _ _ := rfl
  ownChannel h := ⟨h, List.prefix_rfl⟩

theorem EncodeWork.writeFrame {s u : State} (h : EncodeWork s u) (w : Half) : EncodeWork s (u.writeFrame w) := { h with }

theorem EncodeWork.setPhase {s u : State} (h : EncodeWork s u) (p : Phase) : EncodeWork s (u.setPhase p) := { h with }

theorem EncodeWork.setSsePos {s u : State} (h : EncodeWork s u) (p : Fin 16) : EncodeWork s (u.setSsePos p) := { h with }

theorem EncodeWork.setGapPos {s u : State} (h : EncodeWork s u) (p : Fin 1) : EncodeWork s (u.setGapPos p) := { h with }

/-- A delegate's symbols go to the end of the command's own channel. -/
theorem EncodeWork.appendAll {s u : State} (h : EncodeWork s u) (ys : List Symbol) :
    EncodeWork s (u.appendAll u.opChan ys) where
  par := by simpa using h.par
  inst := by simpa using h.inst
  cfg := by simpa using h.cfg
  tim := by simpa using h.tim
  sym := by simpa using h.sym
  bitOrder := by simp
  sseLive := by simpa using h.sseLive
  gapLive := by simpa using h.gapLive
  res := by simpa using h.res
  fault := by simpa using h.fault
  refused := by simpa using h.refused
  cmd := by simpa using h.cmd
  pending := by simpa using h.pending
  otherChannels c hc := by
    have hc' : c ≠ u.opChan := by simpa [State.opChan, h.cmd] using hc
    rw [State.read_appendAll_other hc', h.otherChannels c hc]
  ownChannel hwf := by
    obtain ⟨hu, hgrows⟩ := h.ownChannel hwf
    have hchan : u.opChan = s.cmd.chan := by rw [State.opChan, h.cmd]
    refine ⟨State.appendAll_out_wf hu _ _, hgrows.trans ?_⟩
    rw [hchan, State.read_appendAll_same hu]
    exact List.prefix_append _ _

section
variable {thr : Half} {tlm : Bool} {s u t : State}

theorem gapPhase_ends {n : Nat} {p : Phase} (hw : EncodeWork s u) (h : gapPhase n p u = .next t) :
    ∃ v, EncodeWork s v ∧ Ends (.encode thr tlm) v t := by
  obtain ⟨r, rfl, -⟩ | ⟨g, a, -, -, -, ⟨-, rfl⟩ | ⟨-, rfl⟩⟩ := gapPhase_cases h
  · exact ⟨u, hw, .fault _⟩
  · exact ⟨_, ((hw.appendAll a.symbols).setGapPos 0).setPhase _, .returned _ rfl⟩
  · exact ⟨_, hw.appendAll a.symbols, .fault _⟩

theorem framePhase_ends (hw : EncodeWork s u) (h : framePhase u = .next t) :
    ∃ v, EncodeWork s v ∧ Ends (.encode thr tlm) v t := by
  obtain ⟨r, rfl, -⟩ | ⟨pos, unit, a, v, -, -, -, hv, h⟩ := framePhase_cases h
  · exact ⟨u, hw, .fault _⟩
  have hwv : EncodeWork s v := hv ▸ ((hw.appendAll a.symbols).setSsePos _).setPhase _
  obtain ⟨-, rfl⟩ | ⟨-, ⟨f, -, rfl⟩ | ⟨-, h⟩⟩ := h
  · exact ⟨_, hw.appendAll a.symbols, .fault _⟩
  · exact ⟨v, hwv, .returned _ rfl⟩
  · exact gapPhase_ends hwv h

theorem execEncode_ends (h : execEncode thr tlm s = .next t) : ∃ u, EncodeWork s u ∧ Ends (.encode thr tlm) u t := by
  have hw := EncodeWork.refl s
  obtain ⟨-, rfl⟩ | ⟨-, -, rfl⟩ | ⟨-, -, -, rfl⟩ | ⟨b, -, -, -, h⟩ := execEncode_cases h
  · exact ⟨s, hw, .fault _⟩
  · exact ⟨s, hw, .refusal _⟩
  · exact ⟨s, hw, .fault _⟩
  obtain ⟨-, rfl⟩ | ⟨-, h⟩ | ⟨-, h⟩ := h
  · exact ⟨_, hw.writeFrame _, .fault _⟩
  · exact framePhase_ends (hw.writeFrame _) h
  · exact gapPhase_ends (hw.writeFrame _) h

end

/-- Settles O33: the work of ENCODE keeps its frame, and its ending writes the marks and the result registers other than
`RES_FRAME`. -/
theorem encodeFrame : Obligations.EncodeFrame := by
  intro thr tlm s t h
  obtain ⟨u, hw, hend⟩ := execEncode_ends h
  have hframe : t.res.frame = s.res.frame := hend.encode_frame.trans (congrArg ResultRegs.frame hw.res)
  obtain ⟨res, fault, refused, ended, rfl⟩ := hend.exists_update
  exact ⟨hw.par, hw.inst, hw.cfg, hw.tim, hw.sym, hw.bitOrder, hw.sseLive, hw.gapLive, hframe, hw.cmd, hw.pending,
    hw.otherChannels, fun hwf => (hw.ownChannel hwf).2⟩

/-! ### Every command -/

/-- From `s` to `u` no mark and no result register was written. -/
def KeepsMarksAndResults (s u : State) : Prop := u.fault = s.fault ∧ u.refused = s.refused ∧ u.res = s.res

theorem KeepsMarksAndResults.appendAll {s u : State} (h : KeepsMarksAndResults s u) (c : Chan) (ys : List Symbol) :
    KeepsMarksAndResults s (u.appendAll c ys) := by
  simpa [KeepsMarksAndResults] using h

theorem misbehaved_ends {i : Instr} {d : Delegate} {a : Option Answer} {s u t : State} (h : misbehaved d a u = .next t)
    (hu : KeepsMarksAndResults s u) : ∃ v, Ends i v t ∧ KeepsMarksAndResults s v := by
  rw [misbehaved_next h]
  exact ⟨_, .fault _, hu.appendAll _ _⟩

/-- What every command does: it works without touching a mark or a result register, and ends once. -/
theorem exec_ends {i : Instr} {s t : State} (h : exec i s = .next t) : ∃ u, Ends i u t ∧ KeepsMarksAndResults s u := by
  cases i with
  | encode thr tlm =>
    obtain ⟨u, hw, hend⟩ := execEncode_ends h
    exact ⟨u, hend, hw.fault, hw.refused, hw.res⟩
  | reset =>
    obtain ⟨-, rfl⟩ | ⟨-, -, h⟩ | ⟨-, -, -, h⟩ | ⟨-, -, -, rfl⟩ := execReset_cases h
    · exact ⟨s, .fault _, rfl, rfl, rfl⟩
    · exact misbehaved_ends h ⟨rfl, rfl, rfl⟩
    · exact misbehaved_ends h ⟨rfl, rfl, rfl⟩
    · exact ⟨_, .returned _ rfl, rfl, rfl, rfl⟩
  | destroy =>
    obtain ⟨-, rfl⟩ | ⟨-, -, h⟩ | ⟨-, -, -, h⟩ | ⟨-, -, -, rfl⟩ := execDestroy_cases h
    · exact ⟨s, .fault _, rfl, rfl, rfl⟩
    · exact misbehaved_ends h ⟨rfl, rfl, rfl⟩
    · exact misbehaved_ends h ⟨rfl, rfl, rfl⟩
    · exact ⟨_, .returned _ rfl, rfl, rfl, rfl⟩
  | construct bidir =>
    obtain ⟨-, rfl⟩ | ⟨-, rfl⟩ | ⟨-, rfl⟩ | ⟨-, -, -, -, rfl⟩ := execConstruct_cases h
    · exact ⟨s, .fault _, rfl, rfl, rfl⟩
    · exact ⟨s, .refusal _, rfl, rfl, rfl⟩
    · exact ⟨s, .returned _ rfl, rfl, rfl, rfl⟩
    · exact ⟨_, .returned _ rfl, rfl, rfl, rfl⟩
  | constructNull =>
    obtain ⟨-, rfl⟩ | ⟨-, rfl⟩ := execConstructNull_cases h
    · exact ⟨s, .fault _, rfl, rfl, rfl⟩
    · exact ⟨s, .returned _ rfl, rfl, rfl, rfl⟩
  | buildFrame thr tlm bidir =>
    cases h
    exact ⟨s, .returned _ rfl, rfl, rfl, rfl⟩

theorem exec_marks {i : Instr} {s t : State} (h : exec i s = .next t) :
    (∀ f ∈ s.fault, f ∈ t.fault) ∧ (s.refused = true → t.refused = true) := by
  obtain ⟨u, hend, hfault, hrefused, -⟩ := exec_ends h
  rw [← hfault, ← hrefused]
  exact hend.marks

theorem step_marks {s t : State} (h : step s = .next t) :
    (∀ f ∈ s.fault, f ∈ t.fault) ∧ (s.refused = true → t.refused = true) := by
  obtain ⟨-, ⟨-, rfl⟩ | ⟨c, rest, -, ⟨-, rfl⟩ | ⟨i, -, h⟩⟩⟩ := step_cases h
  · exact ⟨fun _ hf => hf, id⟩
  · exact ⟨fun _ hf => hf, fun _ => rfl⟩
  · simpa using exec_marks h

/-- Settles O9: the two marks are clear at power-on, a fault and a refusal set them, and no ending of a command takes one away. -/
theorem marksAreSetAndNeverCleared : Obligations.MarksAreSetAndNeverCleared :=
  ⟨rfl, rfl, fun f s => ⟨s.addFault f, rfl, State.mem_addFault.2 (.inl rfl)⟩, fun r s => ⟨s.markRefused r, rfl, rfl⟩,
    fun _ _ => step_marks, fun _ _ _ => exec_marks⟩

/-- Settles O51: of the endings only the return leaves results, and the host reads exactly what it wrote. -/
theorem hostReadsWhatTheCommandWrote : Obligations.HostReadsWhatTheCommandWrote := by
  intro i s t m h hreturned
  obtain ⟨u, hend, -, -, hres⟩ := exec_ends h
  cases hend with
  | fault f => cases hreturned
  | refusal r => cases hreturned
  | @returned k n f w hmask =>
    refine ⟨by simp, ?_⟩
    rw [State.hostReads_writeResults, State.writeResults_res, hres]
    cases i with
    | encode thr tlm =>
      obtain ⟨hn, hf, rfl⟩ : n.isSome ∧ f.isSome ∧ w = none := by simpa [resultMask] using hmask
      exact ⟨hn, (Option.or_of_isSome hn).symm, hf, (Option.or_of_isSome hf).symm, rfl, rfl⟩
    | buildFrame thr tlm bidir =>
      obtain ⟨rfl, rfl, hw⟩ : n = none ∧ f = none ∧ w.isSome := by simpa [resultMask] using hmask
      exact ⟨hw, (Option.or_of_isSome hw).symm, rfl, rfl, rfl, rfl⟩
    | reset | destroy | construct _ | constructNull =>
      obtain ⟨rfl, rfl, rfl⟩ : n = none ∧ f = none ∧ w = none := by simpa [resultMask] using hmask
      exact ⟨rfl, rfl, rfl, rfl, rfl, rfl⟩

/-! ### The writers of INST -/

theorem misbehaved_inst {d : Delegate} {a : Option Answer} {s t : State} (h : misbehaved d a s = .next t) : t.inst = s.inst := by
  rw [misbehaved_next h]
  simp

theorem execReset_inst {s t : State} (h : execReset s = .next t) : t.inst = s.inst := by
  obtain ⟨-, rfl⟩ | ⟨-, -, h⟩ | ⟨-, -, -, h⟩ | ⟨-, -, -, rfl⟩ := execReset_cases h
  · rfl
  · exact misbehaved_inst h
  · simpa using misbehaved_inst h
  · rfl

theorem execDestroy_inst {s t : State} (h : execDestroy s = .next t) :
    t.inst = s.inst ∨ s.inst = .live ∧ t.inst = .destroyed := by
  obtain ⟨-, rfl⟩ | ⟨-, -, h⟩ | ⟨-, -, -, h⟩ | ⟨hi, -, -, rfl⟩ := execDestroy_cases h
  · exact .inl rfl
  · exact .inl (misbehaved_inst h)
  · exact .inl (by simpa using misbehaved_inst h)
  · exact .inr ⟨hi, rfl⟩

theorem execConstruct_inst {bidir : Bool} {s t : State} (h : execConstruct bidir s = .next t) :
    t.inst = s.inst ∨ t.inst = .live ∧ t.res.code = some codeOk := by
  obtain ⟨-, rfl⟩ | ⟨-, rfl⟩ | ⟨-, rfl⟩ | ⟨-, -, -, -, rfl⟩ := execConstruct_cases h
  · exact .inl rfl
  · exact .inl rfl
  · exact .inl rfl
  · exact .inr ⟨rfl, rfl⟩

theorem execConstructNull_inst {s t : State} (h : execConstructNull s = .next t) : t.inst = s.inst := by
  obtain ⟨-, rfl⟩ | ⟨-, rfl⟩ := execConstructNull_cases h
  · rfl
  · rfl

theorem execEncode_inst {thr : Half} {tlm : Bool} {s t : State} (h : execEncode thr tlm s = .next t) : t.inst = s.inst := by
  obtain ⟨-, hinst, -⟩ := encodeFrame thr tlm s t h
  exact hinst

theorem execBuildFrame_inst {thr : Half} {tlm bidir : Bool} {s t : State} (h : execBuildFrame thr tlm bidir s = .next t) :
    t.inst = s.inst := by
  rw [execBuildFrame_eq] at h
  cases h
  rfl

/-- Settles O49: of the six commands only the successful CONSTRUCT and the DESTROY of a live block change `INST`. -/
theorem onlyConstructAndDestroyWriteInst : Obligations.OnlyConstructAndDestroyWriteInst := by
  refine ⟨rfl, fun i s t h hne => ?_⟩
  cases i with
  | encode thr tlm => exact absurd (execEncode_inst h) hne
  | reset => exact absurd (execReset_inst h) hne
  | destroy => exact .inr ⟨rfl, (execDestroy_inst h).resolve_left hne⟩
  | construct bidir => exact .inl ⟨⟨bidir, rfl⟩, (execConstruct_inst h).resolve_left hne⟩
  | constructNull => exact absurd (execConstructNull_inst h) hne
  | buildFrame thr tlm bidir => exact absurd (execBuildFrame_inst h) hne

end Sys2Proof.Machine
end

section
/-! PROOFS. The memory of the block (20_memory.md): the frame buffer's lanes and the order of its bits on the line, the refusal of a shared
output buffer, and that no command reads an output buffer. -/

namespace Sys2Proof.Machine

/-! ### The frame buffer -/

/-- Settles O17: `fbRead` is the read of these two lanes. -/
theorem frameBufferByteLanes : Obligations.FrameBufferByteLanes := fun _ => ⟨rfl, rfl⟩

/-- The lane at offset 0 carries the high byte of `F`, which is sent first (40_frame_builder.md R105). -/
theorem fbRead_swapBytes_zero (f : Half) : fbRead (swapBytes f) 0 = f.extractLsb' 8 8 := by
  rw [fbRead, if_pos rfl]
  ext i hi
  interval_cases i <;> simp [swapBytes]

/-- The other lane carries the low byte of `F`. -/
theorem fbRead_swapBytes_one (f : Half) : fbRead (swapBytes f) 1 = f.extractLsb' 0 8 := by
  rw [fbRead, if_neg Nat.one_ne_zero]
  ext i hi
  interval_cases i <;> simp [swapBytes]

/-- Masking a shifted byte picks one bit of it. -/
theorem fbBit_eq_getLsbD (o : BitOrder) (w : Half) (k : Nat) : fbBit o w k = (fbRead w (k / 8)).getLsbD (bitPlace o k) := by
  rw [fbBit, BitVec.and_one_eq_setWidth_ofBool_getLsbD, BitVec.getLsbD_ushiftRight, Nat.add_zero]
  cases (fbRead w (k / 8)).getLsbD (bitPlace o k) <;> rfl

/-- The byte swap and the bit order within a byte together send `F` from its top bit down (43_subencoders.md R203). -/
theorem fbBit_swapBytes (f : Half) {k : Nat} (hk : k < 16) : fbBit .msbFirst (swapBytes f) k = f.getLsbD (15 - k) := by
  rw [fbBit_eq_getLsbD, bitPlace]
  obtain h | h := Nat.lt_or_ge k 8
  · rw [Nat.div_eq_of_lt h, fbRead_swapBytes_zero, BitVec.getLsbD_extractLsb', decide_eq_true (by omega), Bool.true_and]
    congr 1
    omega
  · rw [show k / 8 = 1 by omega, fbRead_swapBytes_one, BitVec.getLsbD_extractLsb', decide_eq_true (by omega), Bool.true_and]
    congr 1
    omega

/-! ### The frame value in the terms of the specification -/

/-- The bits of 12 bits followed by the CRC nibble. -/
theorem getElem_append_nibble (p : BitVec 12) (q : BitVec 4) (i : Nat) (hi : i < 16) :
    (p ++ q : BitVec 16)[i] = if h : i < 4 then q[i] else p[i - 4] :=
  BitVec.getElem_append (x := p) (y := q) hi

theorem getElem_payload (thr : Half) (tlm : Bool) (i : Nat) (hi : i < 12) :
    (Claim.payload thr tlm)[i] = if i = 0 then tlm else thr[i - 1] := by
  rw [Claim.payload]
  refine (BitVec.getElem_append (x := thr.extractLsb' 0 11) (y := BitVec.ofBool tlm) hi).trans ?_
  by_cases h : i = 0
  · simp [h]
  · simp [h, BitVec.getLsbD_eq_getElem (show i - 1 < 16 by omega)]

theorem packFrame_eq_append (thr : Half) (tlm : Bool) : packFrame thr tlm = Claim.payload thr tlm ++ 0#4 := by
  ext i hi
  rw [getElem_append_nibble]
  interval_cases i <;> simp [packFrame, throttle11, bit, getElem_payload]

theorem crcOf_append (p : BitVec 12) (bidir : Bool) : crcOf (p ++ 0#4) bidir = Claim.crc p bidir := by
  ext i hi
  cases bidir <;> interval_cases i <;>
    simp [crcOf, crcOfSeed, invertSeed, crcSeed, Claim.crc, getElem_append_nibble]

theorem insertCrc_append (p : BitVec 12) (q : BitVec 4) : insertCrc (p ++ 0#4) q = p ++ q := by
  ext i hi
  interval_cases i <;> simp [insertCrc, getElem_append_nibble]

/-- The frame builder's `F` is the layout of 30_encoding.md R82 with the closed-form CRC of 40_frame_builder.md R106. -/
theorem frameValue_eq_frame (thr : Half) (tlm bidir : Bool) : frameValue thr tlm bidir = Claim.frame thr tlm bidir := by
  rw [frameValue, packFrame_eq_append, crcOf_append, insertCrc_append, Claim.frame]

/-- The SSE's unit for a byte-swapped frame value (43_subencoders.md R212). -/
theorem sseUnit_swapBytes (b1 b0 : Symbol) (f : Half) :
    sseUnit .msbFirst b1 b0 (swapBytes f) frameBytes = Claim.bitSymbols f b1 b0 := by
  refine List.map_congr_left fun k hk => ?_
  rw [fbBit_swapBytes f (List.mem_range.1 hk)]

/-- Settles O19: the frame on the wire is the swapped `F`, and the SSE undoes the swap as it takes the bits. -/
theorem payloadIsSentMostSignificantFirst : Obligations.PayloadIsSentMostSignificantFirst := by
  intro thr tlm bidir bit1 bit0
  rw [wireFrame, frameValue_eq_frame, sseUnit_swapBytes]

/-! ### Shared output buffers -/

/-- Settles O35: on a live block the check of the buffer is the first that ENCODE makes. -/
theorem sharedBufferIsRefused : Obligations.SharedBufferIsRefused := by
  intro thr tlm s hlive hshared
  show execEncode thr tlm s = .next (s.markRefused .sharedOutputBuffer)
  rw [execEncode, if_neg (not_not.2 hlive), if_pos hshared, refuse_eq]

/-! ### Output buffers are never read -/

/-- `s` with other contents in the output buffers. -/
def State.withOut (m : Memory) (s : State) : State := { s with out := m }

@[simp] theorem State.withOut_inst (m : Memory) (s : State) : (s.withOut m).inst = s.inst := rfl
@[simp] theorem State.withOut_par (m : Memory) (s : State) : (s.withOut m).par = s.par := rfl
@[simp] theorem State.withOut_cfg (m : Memory) (s : State) : (s.withOut m).cfg = s.cfg := rfl
@[simp] theorem State.withOut_sym (m : Memory) (s : State) : (s.withOut m).sym = s.sym := rfl
@[simp] theorem State.withOut_bitOrder (m : Memory) (s : State) : (s.withOut m).bitOrder = s.bitOrder := rfl
@[simp] theorem State.withOut_phase (m : Memory) (s : State) : (s.withOut m).phase = s.phase := rfl
@[simp] theorem State.withOut_frameReg (m : Memory) (s : State) : (s.withOut m).frameReg = s.frameReg := rfl
@[simp] theorem State.withOut_ssePos (m : Memory) (s : State) : (s.withOut m).ssePos = s.ssePos := rfl
@[simp] theorem State.withOut_gapPos (m : Memory) (s : State) : (s.withOut m).gapPos = s.gapPos := rfl
@[simp] theorem State.withOut_free (m : Memory) (s : State) : (s.withOut m).free = s.free := rfl
@[simp] theorem State.withOut_cmd (m : Memory) (s : State) : (s.withOut m).cmd = s.cmd := rfl
@[simp] theorem State.withOut_opChan (m : Memory) (s : State) : (s.withOut m).opChan = s.opChan := rfl
@[simp] theorem State.withOut_opRes (m : Memory) (s : State) : (s.withOut m).opRes = s.opRes := rfl
@[simp] theorem State.withOut_opBaud (m : Memory) (s : State) : (s.withOut m).opBaud = s.opBaud := rfl
@[simp] theorem State.withOut_opDelay (m : Memory) (s : State) : (s.withOut m).opDelay = s.opDelay := rfl
@[simp] theorem sseAnswer_withOut (m : Memory) (s : State) : sseAnswer (s.withOut m) = sseAnswer s := rfl
@[simp] theorem gapAnswer_withOut (m : Memory) (s : State) : gapAnswer (s.withOut m) = gapAnswer s := rfl

/-- The symbols of one delegate call, appended to the buffer of channel `c` (20_memory.md R60). -/
def Memory.appendAll (c : Chan) (ys : List Symbol) (m : Memory) : Memory := ys.foldl (fun m y => m.append c y) m

/-- `State.appendAll` is this append on the buffers, whatever they hold. -/
theorem State.appendAll_withOut (c : Chan) (ys : List Symbol) (s : State) (m : Memory) :
    (s.withOut m).appendAll c ys = (s.appendAll c ys).withOut (m.appendAll c ys) := by
  simp only [State.appendAll_eq, State.withOut, Memory.appendAll]

theorem Memory.appendAll_append (c : Chan) (ys zs : List Symbol) (m : Memory) :
    m.appendAll c (ys ++ zs) = (m.appendAll c ys).appendAll c zs :=
  List.foldl_append

/-- Every buffer has grown by a list that does not depend on what the buffers held. -/
theorem Memory.read_appendAll {m : Memory} (hm : m.wf) (c d : Chan) (ys : List Symbol) :
    Memory.read d (m.appendAll c ys) = Memory.read d m ++ if d = c then ys else [] := by
  have hout : ((State.reset.withOut m).appendAll c ys).out = m.appendAll c ys := State.appendAll_out ..
  rw [← hout]
  split
  · next h => exact h ▸ State.read_appendAll_same hm c ys
  · next h => rw [State.read_appendAll_other h, List.append_nil]; rfl

/-- `r m` is what a computation answers when the output buffers hold `m`. It is blind to them when it ends in one state, and appends one
list of symbols to the buffer of channel `c`, for every `m`. -/
def BufferBlind (c : Chan) (r : Memory → Result) : Prop :=
  ∃ (t : State) (ys : List Symbol), ∀ m, r m = .next (t.withOut (m.appendAll c ys))

namespace BufferBlind

variable {c : Chan}

/-- An ending that appends nothing. -/
theorem next (t : State) : BufferBlind c fun m => .next (t.withOut m) := ⟨t, [], fun _ => rfl⟩

/-- A check of something other than the buffers. Its decision procedure may mention them. -/
theorem check {p : Prop} {dp : Memory → Decidable p} {r r' : Memory → Result} (h : BufferBlind c r) (h' : BufferBlind c r') :
    BufferBlind c fun m => @ite Result p (dp m) (r m) (r' m) := by
  by_cases hp : p
  · simpa only [if_pos hp] using h
  · simpa only [if_neg hp] using h'

/-- A register read, with the fault where the register holds no value. -/
theorem need {α : Type} {r : Reg} {v : Option α} {s : State} {k : Memory → α → Result}
    (h : ∀ x, BufferBlind c fun m => k m x) : BufferBlind c fun m => need r v (s.withOut m) (k m) := by
  cases v with
  | none => exact next (s.addFault (.unwrittenRead r))
  | some x => exact h x

/-- The appends of a delegate call, before a blind rest. -/
theorem appendAll {s : State} {ys : List Symbol} {k : State → Result}
    (h : BufferBlind c fun m => k ((s.appendAll c ys).withOut m)) : BufferBlind c fun m => k ((s.withOut m).appendAll c ys) := by
  obtain ⟨t, zs, ht⟩ := h
  refine ⟨t, ys ++ zs, fun m => ?_⟩
  beta_reduce at ht ⊢
  rw [State.appendAll_withOut, ht, Memory.appendAll_append]

/-- A fault after the appends of a delegate. -/
theorem raiseFault_appendAll (f : Fault) (s : State) (ys : List Symbol) :
    BufferBlind c fun m => raiseFault f ((s.withOut m).appendAll c ys) :=
  appendAll (next ((s.appendAll c ys).addFault f))

end BufferBlind

/-! #### ENCODE -/

section
variable {s : State} {k : Nat → FlagSet → State → Result}

theorem finishSseCall_blind (pos : Fin 16) (unit : List Symbol) (a : Answer)
    (hk : ∀ n f (u : State), u.opChan = s.opChan → BufferBlind s.opChan fun m => k n f (u.withOut m)) :
    BufferBlind s.opChan fun m => finishSseCall (s.withOut m) pos unit a k := by
  simp only [finishSseCall, State.withOut_free, State.withOut_opChan, State.withOut_cmd]
  refine .check ?_ (.raiseFault_appendAll _ s a.symbols)
  exact .appendAll (k := fun u => k a.n a.flags (u.setSsePos (nextSsePos pos a.n)))
    (hk a.n a.flags ((s.appendAll s.opChan a.symbols).setSsePos (nextSsePos pos a.n)) (by simp [State.opChan]))

theorem finishGapCall_blind (pos : Fin 1) (unit : List Symbol) (a : Answer)
    (hk : ∀ n f (u : State), u.opChan = s.opChan → BufferBlind s.opChan fun m => k n f (u.withOut m)) :
    BufferBlind s.opChan fun m => finishGapCall (s.withOut m) pos unit a k := by
  simp only [finishGapCall, State.withOut_free, State.withOut_opChan, State.withOut_cmd]
  refine .check ?_ (.raiseFault_appendAll _ s a.symbols)
  exact .appendAll (k := fun u => k a.n a.flags (u.setGapPos (nextGapPos pos a.n)))
    (hk a.n a.flags ((s.appendAll s.opChan a.symbols).setGapPos (nextGapPos pos a.n)) (by simp [State.opChan]))

theorem callSse_blind (hk : ∀ n f (u : State), u.opChan = s.opChan → BufferBlind s.opChan fun m => k n f (u.withOut m)) :
    BufferBlind s.opChan fun m => callSse (s.withOut m) k := by
  simp only [callSse, State.withOut_ssePos, State.withOut_frameReg, State.withOut_sym, State.withOut_bitOrder, sseAnswer_withOut]
  exact .need fun _ => .need fun _ => .need fun _ => .need fun _ => finishSseCall_blind _ _ _ hk

theorem callGap_blind (hk : ∀ n f (u : State), u.opChan = s.opChan → BufferBlind s.opChan fun m => k n f (u.withOut m)) :
    BufferBlind s.opChan fun m => callGap (s.withOut m) k := by
  simp only [callGap, State.withOut_gapPos, State.withOut_sym, State.withOut_par, gapAnswer_withOut]
  exact .need fun _ => .need fun _ => finishGapCall_blind _ _ _ hk

end

theorem gapPhase_blind (n : Nat) (p : Phase) (s : State) : BufferBlind s.opChan fun m => gapPhase n p (s.withOut m) :=
  callGap_blind fun j f u _ => .next ((u.setPhase (phaseAfterGap f p)).writeResults codeOk (some (BitVec.ofNat 32 (n + j)))
    (some (flagsAfterGap f).encode) none)

theorem framePhase_blind (s : State) : BufferBlind s.opChan fun m => framePhase (s.withOut m) := by
  simp only [framePhase, State.withOut_par]
  refine callSse_blind fun n f u hu => ?_
  cases afterFrame s.par.neitherPolicy f with
  | stop reported =>
    exact .next ((u.setPhase (phaseAfterFrame f .awaitingFrame)).writeResults codeOk (some (BitVec.ofNat 32 n))
      (some reported.encode) none)
  | gapPhase => exact hu ▸ gapPhase_blind n _ (u.setPhase (phaseAfterFrame f .awaitingFrame))

theorem execEncode_blind (thr : Half) (tlm : Bool) (s : State) :
    BufferBlind s.opChan fun m => execEncode thr tlm (s.withOut m) := by
  simp only [execEncode, State.withOut_inst, State.withOut_cmd, State.withOut_cfg, State.writeFrame_phase, State.withOut_phase]
  refine .check (.next (s.addFault _)) (.check (.next (s.markRefused _)) (.need fun bidir => ?_))
  refine .need (s := s.writeFrame (wireFrame thr tlm bidir)) fun p => ?_
  cases p with
  | awaitingFrame => exact framePhase_blind (s.writeFrame (wireFrame thr tlm bidir))
  | awaitingGap => exact gapPhase_blind 0 .awaitingGap (s.writeFrame (wireFrame thr tlm bidir))

/-! #### The other commands -/

theorem misbehaved_blind (d : Delegate) (a : Option Answer) (s : State) :
    BufferBlind s.opChan fun m => misbehaved d a (s.withOut m) := by
  simp only [misbehaved, State.withOut_opChan, State.withOut_cmd]
  exact .raiseFault_appendAll _ s (answerSymbols a)

theorem execReset_blind (s : State) : BufferBlind s.opChan fun m => execReset (s.withOut m) := by
  simp only [execReset, callSseReset, callGapReset, State.setSsePos_cmd, State.withOut_inst, State.withOut_cmd]
  refine .check (.next (s.addFault _)) (.check (.check ?_ ?_) (misbehaved_blind .sse s.cmd.sse s))
  · exact .next ((((s.setSsePos 0).setGapPos 0).setPhase .awaitingFrame).writeResults codeOk none none none)
  · exact misbehaved_blind .gap s.cmd.gap (s.setSsePos 0)

theorem execDestroy_blind (s : State) : BufferBlind s.opChan fun m => execDestroy (s.withOut m) := by
  simp only [execDestroy, callSseDestroy, callGapDestroy, State.dropSse_cmd, State.withOut_inst, State.withOut_cmd]
  refine .check (.next (s.addFault _)) (.check (.check ?_ ?_) (misbehaved_blind .sse s.cmd.sse s))
  · exact .next (s.dropSse.dropGap.releaseStorage.writeResults codeOk none none none)
  · exact misbehaved_blind .gap s.cmd.gap s.dropSse

theorem execConstruct_blind (bidir : Bool) (s : State) : BufferBlind s.opChan fun m => execConstruct bidir (s.withOut m) := by
  simp only [execConstruct, State.withOut_inst, State.withOut_cmd, State.withOut_par, State.withOut_opRes, State.withOut_opBaud,
    State.withOut_opDelay]
  refine .check (.next (s.addFault _)) (.check (.next (s.markRefused _)) (.check (.next (s.markRefused _)) ?_))
  have outOfMemory : BufferBlind s.opChan fun m => finish codeOutOfMemory (s.withOut m) :=
    .next (s.writeResults codeOutOfMemory none none none)
  refine .check outOfMemory (.check outOfMemory (.check outOfMemory ?_))
  exact .next ((s.install _ _ _).writeResults codeOk none none none)

theorem execConstructNull_blind (s : State) : BufferBlind s.opChan fun m => execConstructNull (s.withOut m) := by
  simp only [execConstructNull, State.withOut_inst, State.withOut_cmd]
  exact .check (.next (s.addFault _)) (.next (s.writeResults codeInvalidArgument none none none))

theorem execBuildFrame_blind (thr : Half) (tlm bidir : Bool) (s : State) :
    BufferBlind s.opChan fun m => execBuildFrame thr tlm bidir (s.withOut m) :=
  .next (s.writeResults codeOk none none (some (wireFrame thr tlm bidir)))

/-- Every command ends in one state, and appends one list of symbols to its own channel, whatever the output buffers hold. -/
theorem exec_blind (i : Instr) (s : State) : BufferBlind s.opChan fun m => exec i (s.withOut m) := by
  cases i with
  | encode thr tlm => exact execEncode_blind thr tlm s
  | reset => exact execReset_blind s
  | destroy => exact execDestroy_blind s
  | construct bidir => exact execConstruct_blind bidir s
  | constructNull => exact execConstructNull_blind s
  | buildFrame thr tlm bidir => exact execBuildFrame_blind thr tlm bidir s

/-- Settles O53: a blind command answers alike for the buffers of `s` and for `m`, and both grow by the same symbols. -/
theorem outputBuffersAreNeverRead : Obligations.OutputBuffersAreNeverRead := by
  intro i s t m hs hm h
  obtain ⟨u, ys, hu⟩ := exec_blind i s
  obtain rfl : u.withOut (s.out.appendAll s.opChan ys) = t := Host.Outcome.next.inj ((hu s.out).symm.trans h)
  exact ⟨m.appendAll s.opChan ys, hu m, fun c =>
    ⟨if c = s.opChan then ys else [], Memory.read_appendAll hs _ c ys, Memory.read_appendAll hm _ c ys⟩⟩

end Sys2Proof.Machine
end

section
/-! PROOFS. Command words (30_encoding.md R70 to R79): a word is its fields, so a masked comparison is a condition on each field. The words
that decode are exactly the encodings, and so are the words that the specification does not reserve. -/

namespace Sys2Proof

/-! ### A word as its fields -/

/-- `CW[15:7]`, which no command uses (30_encoding.md R70). -/
def spareField (cw : BitVec 32) : BitVec 9 := cw.extractLsb' 7 9

theorem bit_getLsbD (cw : BitVec 32) (i : Nat) : bit (cw.getLsbD i) = cw.extractLsb' i 1 := by
  apply BitVec.eq_of_getLsbD_eq
  intro j hj
  obtain rfl : j = 0 := by omega
  simp [bit]

theorem fields_append (cw : BitVec 32) :
    thrField cw ++ spareField cw ++ bit (cfgpField cw) ++ bit (bidirField cw) ++ bit (tlmField cw) ++ opField cw = cw := by
  simp only [thrField, spareField, cfgpField, bidirField, tlmField, opField, bit_getLsbD,
    BitVec.extractLsb'_append_extractLsb'_eq_extractLsb']
  exact BitVec.extractLsb'_eq_self

theorem eq_iff_fields {v w : BitVec 32} : v = w ↔
    thrField v = thrField w ∧ spareField v = spareField w ∧ cfgpField v = cfgpField w ∧ bidirField v = bidirField w ∧
      tlmField v = tlmField w ∧ opField v = opField w := by
  refine ⟨fun h => h ▸ ⟨rfl, rfl, rfl, rfl, rfl, rfl⟩, fun ⟨hthr, hspare, hcfgp, hbidir, htlm, hop⟩ => ?_⟩
  rw [← fields_append v, ← fields_append w, hthr, hspare, hcfgp, hbidir, htlm, hop]

/-- A masked comparison, field by field. -/
theorem and_eq_iff_fields {v m w : BitVec 32} : v &&& m = w ↔
    thrField v &&& thrField m = thrField w ∧ spareField v &&& spareField m = spareField w ∧
      (cfgpField v && cfgpField m) = cfgpField w ∧ (bidirField v && bidirField m) = bidirField w ∧
      (tlmField v && tlmField m) = tlmField w ∧ opField v &&& opField m = opField w := by
  rw [eq_iff_fields]
  simp only [thrField, spareField, cfgpField, bidirField, tlmField, opField, BitVec.extractLsb'_and, BitVec.getLsbD_and]

theorem spareField_commandWord (thr : BitVec 16) (cfgp bidir tlm : Bool) (op : BitVec 4) :
    spareField (commandWord thr cfgp bidir tlm op) = 0 := by
  apply BitVec.eq_of_getLsbD_eq
  intro i hi
  rw [spareField, BitVec.getLsbD_extractLsb', getLsbD_commandWord]
  simp (disch := omega) [if_neg, if_pos]

theorem eq_commandWord_iff {cw : BitVec 32} {thr : BitVec 16} {cfgp bidir tlm : Bool} {op : BitVec 4} :
    cw = commandWord thr cfgp bidir tlm op ↔
      thrField cw = thr ∧ spareField cw = 0 ∧ cfgpField cw = cfgp ∧ bidirField cw = bidir ∧ tlmField cw = tlm ∧
        opField cw = op := by
  rw [eq_iff_fields, thrField_commandWord, spareField_commandWord, cfgpField_commandWord, bidirField_commandWord,
    tlmField_commandWord, opField_commandWord]

/-! ### The masks of the unused bits -/

theorem and_thrOnes (x : BitVec 16) : x &&& 0xFFFF#16 = x := BitVec.and_allOnes

theorem and_spareOnes (x : BitVec 9) : x &&& 0x1FF#9 = x := BitVec.and_allOnes

theorem and_opOnes (x : BitVec 4) : x &&& 0xF#4 = x := BitVec.and_allOnes

/-- ENCODE (R72). -/
theorem and_encodeMask_eq_zero_iff {cw : BitVec 32} :
    cw &&& 0x0000FFE0#32 = 0#32 ↔ spareField cw = 0 ∧ cfgpField cw = false ∧ bidirField cw = false := by
  simp [and_eq_iff_fields, thrField, spareField, cfgpField, bidirField, tlmField, opField, and_spareOnes]

/-- RESET and DESTROY (R73). -/
theorem and_resetMask_eq_zero_iff {cw : BitVec 32} :
    cw &&& 0xFFFFFFF0#32 = 0#32 ↔
      thrField cw = 0 ∧ spareField cw = 0 ∧ cfgpField cw = false ∧ bidirField cw = false ∧ tlmField cw = false := by
  simp [and_eq_iff_fields, thrField, spareField, cfgpField, bidirField, tlmField, opField, and_spareOnes, and_thrOnes]

/-- CONSTRUCT, configured form (R74). -/
theorem and_constructMask_eq_zero_iff {cw : BitVec 32} :
    cw &&& 0xFFFFFF90#32 = 0#32 ↔ thrField cw = 0 ∧ spareField cw = 0 ∧ tlmField cw = false := by
  simp [and_eq_iff_fields, thrField, spareField, cfgpField, bidirField, tlmField, opField, and_spareOnes, and_thrOnes]

/-- CONSTRUCT, null form (R74). -/
theorem and_constructNullMask_eq_zero_iff {cw : BitVec 32} :
    cw &&& 0xFFFFFFB0#32 = 0#32 ↔ thrField cw = 0 ∧ spareField cw = 0 ∧ bidirField cw = false ∧ tlmField cw = false := by
  simp [and_eq_iff_fields, thrField, spareField, cfgpField, bidirField, tlmField, opField, and_spareOnes, and_thrOnes]

/-- BUILD_FRAME (R75). -/
theorem and_buildFrameMask_eq_zero_iff {cw : BitVec 32} :
    cw &&& 0x0000FFC0#32 = 0#32 ↔ spareField cw = 0 ∧ cfgpField cw = false := by
  simp [and_eq_iff_fields, thrField, spareField, cfgpField, bidirField, tlmField, opField, and_spareOnes]

/-- The decoder's test for the configured form of CONSTRUCT, which lets only the `bidir` bit vary (R79). -/
theorem and_bidirMask_eq_constructWord_iff {cw : BitVec 32} :
    cw &&& 0xFFFFFFDF#32 = 0x00000043#32 ↔
      thrField cw = 0 ∧ spareField cw = 0 ∧ cfgpField cw = true ∧ tlmField cw = false ∧ opField cw = 3#4 := by
  simp [and_eq_iff_fields, thrField, spareField, cfgpField, bidirField, tlmField, opField, and_spareOnes, and_thrOnes,
    and_opOnes]

theorem encodeWord_unused (thr : Half) (tlm : Bool) : commandWord thr false false tlm 0#4 &&& 0x0000FFE0#32 = 0#32 :=
  and_encodeMask_eq_zero_iff.2 ⟨spareField_commandWord .., cfgpField_commandWord .., bidirField_commandWord ..⟩

theorem buildFrameWord_unused (thr : Half) (tlm bidir : Bool) :
    commandWord thr false bidir tlm 4#4 &&& 0x0000FFC0#32 = 0#32 :=
  and_buildFrameMask_eq_zero_iff.2 ⟨spareField_commandWord .., cfgpField_commandWord ..⟩

/-! ### Decoding and encoding -/

/-- BUILD_FRAME alone carries its `op`, so no earlier test of the decoder takes its word. -/
theorem decode_buildFrameWord (thr : Half) (tlm bidir : Bool) :
    decode (commandWord thr false bidir tlm 4#4) = .command (.buildFrame thr tlm bidir) := by
  have hop : opField (commandWord thr false bidir tlm 4#4) = 4#4 := opField_commandWord ..
  have hne (w : BitVec 32) (hw : opField w ≠ 4#4) : commandWord thr false bidir tlm 4#4 ≠ w := fun h => hw (h ▸ hop)
  have hconstruct : ¬ commandWord thr false bidir tlm 4#4 &&& 0xFFFFFFDF#32 = 0x00000043#32 := by
    rw [and_bidirMask_eq_constructWord_iff, hop]
    simp
  rw [decode, if_neg (by simp [hop]), if_neg (hne _ (by decide)), if_neg (hne _ (by decide)), if_neg hconstruct,
    if_neg (hne _ (by decide)), if_pos ⟨hop, buildFrameWord_unused thr tlm bidir⟩, thrField_commandWord, tlmField_commandWord,
    bidirField_commandWord]

theorem decode_encode (i : Instr) : decode (encode i) = .command i := by
  cases i with
  | encode thr tlm =>
    rw [encode, decode, if_pos ⟨opField_commandWord .., encodeWord_unused thr tlm⟩, thrField_commandWord, tlmField_commandWord]
  | reset => rfl
  | destroy => rfl
  | construct bidir =>
    cases bidir
    · rfl
    · rfl
  | constructNull => rfl
  | buildFrame thr tlm bidir => exact decode_buildFrameWord thr tlm bidir

/-- Each test of the decoder fixes every bit that its command does not use. -/
theorem encode_of_decode {cw : BitVec 32} {i : Instr} (h : decode cw = .command i) : encode i = cw := by
  unfold decode at h
  split at h
  · next htest =>
    cases h
    obtain ⟨hop, hmask⟩ := htest
    obtain ⟨hspare, hcfgp, hbidir⟩ := and_encodeMask_eq_zero_iff.1 hmask
    exact (eq_commandWord_iff.2 ⟨rfl, hspare, hcfgp, hbidir, rfl, hop⟩).symm
  split at h
  · next hreset =>
    cases h
    exact hreset.symm
  split at h
  · next hdestroy =>
    cases h
    exact hdestroy.symm
  split at h
  · next htest =>
    cases h
    obtain ⟨hthr, hspare, hcfgp, htlm, hop⟩ := and_bidirMask_eq_constructWord_iff.1 htest
    exact (eq_commandWord_iff.2 ⟨hthr, hspare, hcfgp, rfl, htlm, hop⟩).symm
  split at h
  · next hnull =>
    cases h
    exact hnull.symm
  split at h
  · next htest =>
    cases h
    obtain ⟨hop, hmask⟩ := htest
    obtain ⟨hspare, hcfgp⟩ := and_buildFrameMask_eq_zero_iff.1 hmask
    exact (eq_commandWord_iff.2 ⟨rfl, hspare, hcfgp, rfl, rfl, hop⟩).symm
  · cases h

theorem decode_eq_reservedEncoding_iff (cw : BitVec 32) : decode cw = .reservedEncoding ↔ ∀ i, encode i ≠ cw := by
  refine ⟨fun h i hi => ?_, fun h => ?_⟩
  · rw [← hi, decode_encode] at h
    cases h
  · cases hd : decode cw with
    | command i => exact absurd (encode_of_decode hd) (h i)
    | reservedEncoding => rfl

/-- Settles O1: the fields of a command's word are read back, and the first test that takes the word is the command's own. -/
theorem decodeOfEncodeGivesTheInstruction : Obligations.DecodeOfEncodeGivesTheInstruction := fun i _ => decode_encode i

/-- Settles O2: each test of the decoder leaves one word for the command it answers. -/
theorem encodeOfDecodeGivesTheWord : Obligations.EncodeOfDecodeGivesTheWord := fun _ _ => encode_of_decode

/-- Settles O3: six of the words are encodings, and the seventh sets a bit that the null form of CONSTRUCT does not use. -/
theorem sampleWordsDecode : Obligations.SampleWordsDecode :=
  ⟨decode_encode (.encode 65535#16 true), decode_encode .reset, decode_encode .destroy, decode_encode (.construct true),
    decode_encode .constructNull, decode_encode (.buildFrame 1046#16 false true), by decide⟩

/-! ### Reserved words -/

theorem not_reserved_iff (cw : BitVec 32) :
    ¬ Claim.Reserved cw ↔ (opField cw).toNat < 5 ∧ cw &&& ~~~Claim.usedBits cw = 0 := by
  simp only [Claim.Reserved, opField, not_or, not_le, ne_eq, not_not]

theorem usedBits_of_encode {cw : BitVec 32} (h : opField cw = 0#4) : Claim.usedBits cw = 0xFFFF001F#32 := if_pos h

theorem usedBits_of_buildFrame {cw : BitVec 32} (h : opField cw = 4#4) : Claim.usedBits cw = 0xFFFF003F#32 := by
  rw [opField] at h
  simp [Claim.usedBits, h]

theorem not_reserved_encode (i : Instr) : ¬ Claim.Reserved (encode i) := by
  rw [not_reserved_iff]
  cases i with
  | encode thr tlm =>
    have hop : opField (encode (.encode thr tlm)) = 0#4 := opField_commandWord ..
    rw [hop, usedBits_of_encode hop]
    exact ⟨by decide, encodeWord_unused thr tlm⟩
  | reset => decide
  | destroy => decide
  | construct bidir =>
    cases bidir
    · decide
    · decide
  | constructNull => decide
  | buildFrame thr tlm bidir =>
    have hop : opField (encode (.buildFrame thr tlm bidir)) = 4#4 := opField_commandWord ..
    rw [hop, usedBits_of_buildFrame hop]
    exact ⟨by decide, buildFrameWord_unused thr tlm bidir⟩

/-- `op` picks the command, and the unused bits are zero, so the other fields are its operands. -/
theorem exists_encode_of_not_reserved {cw : BitVec 32} (h : ¬ Claim.Reserved cw) : ∃ i, encode i = cw := by
  obtain ⟨hlt, hunused⟩ := (not_reserved_iff cw).1 h
  unfold Claim.usedBits at hunused
  split at hunused
  · next hop =>
    obtain ⟨hspare, hcfgp, hbidir⟩ := and_encodeMask_eq_zero_iff.1 hunused
    exact ⟨.encode (thrField cw) (tlmField cw), (eq_commandWord_iff.2 ⟨rfl, hspare, hcfgp, hbidir, rfl, hop⟩).symm⟩
  next hne0 =>
  split at hunused
  · next hop =>
    split at hunused
    · next hcfgp =>
      obtain ⟨hthr, hspare, htlm⟩ := and_constructMask_eq_zero_iff.1 hunused
      exact ⟨.construct (bidirField cw), (eq_commandWord_iff.2 ⟨hthr, hspare, hcfgp, rfl, htlm, hop⟩).symm⟩
    · next hcfgp =>
      obtain ⟨hthr, hspare, hbidir, htlm⟩ := and_constructNullMask_eq_zero_iff.1 hunused
      exact ⟨.constructNull, (eq_commandWord_iff.2 ⟨hthr, hspare, Bool.eq_false_iff.2 hcfgp, hbidir, htlm, hop⟩).symm⟩
  next hne3 =>
  split at hunused
  · next hop =>
    obtain ⟨hspare, hcfgp⟩ := and_buildFrameMask_eq_zero_iff.1 hunused
    exact ⟨.buildFrame (thrField cw) (tlmField cw) (bidirField cw),
      (eq_commandWord_iff.2 ⟨rfl, hspare, hcfgp, rfl, rfl, hop⟩).symm⟩
  next hne4 =>
  obtain ⟨hthr, hspare, hcfgp, hbidir, htlm⟩ := and_resetMask_eq_zero_iff.1 hunused
  obtain hop | hop : opField cw = 1#4 ∨ opField cw = 2#4 := by
    unfold opField at hlt ⊢
    bv_omega
  · exact ⟨.reset, (eq_commandWord_iff.2 ⟨hthr, hspare, hcfgp, hbidir, htlm, hop⟩).symm⟩
  · exact ⟨.destroy, (eq_commandWord_iff.2 ⟨hthr, hspare, hcfgp, hbidir, htlm, hop⟩).symm⟩

theorem reserved_iff (cw : BitVec 32) : Claim.Reserved cw ↔ ∀ i, encode i ≠ cw := by
  refine ⟨fun h i hi => not_reserved_encode i (hi ▸ h), fun h => ?_⟩
  by_contra hnot
  obtain ⟨i, hi⟩ := exists_encode_of_not_reserved hnot
  exact h i hi

end Sys2Proof

namespace Sys2Proof.Machine

/-! ### The step on an issued word -/

section
variable {s : State} {c : Command} {rest : List Command} (hfault : s.fault = []) (hpending : s.pending = c :: rest)
include hfault hpending

theorem step_of_decode_command {i : Instr} (hdecode : decode c.cw = .command i) : step s = exec i (s.accept c rest) := by
  simp only [step, hfault, hpending, hdecode]

theorem step_of_decode_reserved (hdecode : decode c.cw = .reservedEncoding) :
    step s = .next ((s.accept c rest).markRefused .reservedEncoding) := by
  simp only [step, hfault, hpending, hdecode, refuse_eq]

end

/-- Settles O4: to decode to nothing and to be reserved are both to be no command's encoding, and such a word is refused before
anything else. -/
theorem reservedWordsAreRefused : Obligations.ReservedWordsAreRefused := by
  intro s c rest hfault hpending
  have hiff : decode c.cw = .reservedEncoding ↔ Claim.Reserved c.cw :=
    (decode_eq_reservedEncoding_iff c.cw).trans (reserved_iff c.cw).symm
  exact ⟨hiff, fun h => step_of_decode_reserved hfault hpending (hiff.2 h)⟩

/-- Settles O7: the state of the statement is the one in which the block has taken the command. -/
theorem stepExecutesTheDecodedCommand : Obligations.StepExecutesTheDecodedCommand :=
  fun _ _ _ _ hfault hpending _ hdecode => step_of_decode_command hfault hpending hdecode

/-- Settles O5: the encoding puts BufferFull above Complete. -/
theorem flagSetEncoding : Obligations.FlagSetEncoding := by
  refine ⟨rfl, rfl, rfl, rfl, fun ⟨complete, bufferFull⟩ => ?_⟩
  simp only [FlagSet.encode, BitVec.getLsbD_append]
  simp

end Sys2Proof.Machine
end

section
/-! PROOFS. The assembly form (30_encoding.md R80, R81): each line's word carries the numbers written, and the forms of a line are those
of the rules and no other. -/

namespace Sys2Proof.Machine

/-! ### The command of a line -/

theorem commandOf_cw (chan : Chan) (l : AsmLine) : (commandOf chan l).cw = encode (instrOf l) := by
  cases l <;> rfl

theorem commandOf_chan (chan : Chan) (l : AsmLine) : (commandOf chan l).chan = chan := by
  cases l <;> rfl

theorem decode_commandOf (chan : Chan) (l : AsmLine) : decode (commandOf chan l).cw = .command (instrOf l) := by
  rw [commandOf_cw, decode_encode]

/-- A flag operand in its range is the bit it becomes. -/
theorem toNat_beq_one {n : Nat} (h : n < 2) : (n == 1).toNat = n := by
  interval_cases n
  · rfl
  · rfl

theorem toNat_ofNat_of_lt {w n : Nat} (h : n < 2 ^ w) : (BitVec.ofNat w n).toNat = n := by
  rw [BitVec.toNat_ofNat, Nat.mod_eq_of_lt h]

theorem commandOf_encode_fields {chan : Chan} {thr tlm : Nat} (h : (AsmLine.encode thr tlm).wellFormed = true) :
    let cw := (commandOf chan (.encode thr tlm)).cw
    decode cw = .command (.encode (thrField cw) (tlmField cw)) ∧ (thrField cw).toNat = thr ∧ (tlmField cw).toNat = tlm := by
  intro cw
  obtain ⟨hthr, htlm⟩ : thr < 2 ^ 16 ∧ tlm < 2 := by simpa [AsmLine.wellFormed, AsmLine.ranges] using h
  have hthrField : thrField cw = BitVec.ofNat 16 thr := thrField_commandWord ..
  have htlmField : tlmField cw = (tlm == 1) := tlmField_commandWord ..
  rw [hthrField, htlmField]
  exact ⟨decode_commandOf chan _, toNat_ofNat_of_lt hthr, toNat_beq_one htlm⟩

theorem commandOf_buildFrame_fields {chan : Chan} {thr tlm bidir : Nat}
    (h : (AsmLine.buildFrame thr tlm bidir).wellFormed = true) :
    let cw := (commandOf chan (.buildFrame thr tlm bidir)).cw
    decode cw = .command (.buildFrame (thrField cw) (tlmField cw) (bidirField cw)) ∧ (thrField cw).toNat = thr ∧
      (tlmField cw).toNat = tlm ∧ (bidirField cw).toNat = bidir := by
  intro cw
  obtain ⟨hthr, htlm, hbidir⟩ : thr < 2 ^ 16 ∧ tlm < 2 ∧ bidir < 2 := by simpa [AsmLine.wellFormed, AsmLine.ranges] using h
  have hthrField : thrField cw = BitVec.ofNat 16 thr := thrField_commandWord ..
  have htlmField : tlmField cw = (tlm == 1) := tlmField_commandWord ..
  have hbidirField : bidirField cw = (bidir == 1) := bidirField_commandWord ..
  rw [hthrField, htlmField, hbidirField]
  exact ⟨decode_commandOf chan _, toNat_ofNat_of_lt hthr, toNat_beq_one htlm, toNat_beq_one hbidir⟩

theorem commandOf_construct_operands {chan : Chan} {res baud delay bidir : Nat}
    (h : (AsmLine.construct res baud delay bidir).wellFormed = true) :
    let c := commandOf chan (.construct res baud delay bidir)
    decode c.cw = .command (.construct (bidirField c.cw)) ∧ (bidirField c.cw).toNat = bidir ∧ c.res.toNat = res ∧
      c.baud.toNat = baud ∧ c.delay.toNat = delay := by
  intro c
  obtain ⟨hres, hbaud, hdelay, hbidir⟩ : res < 2 ^ 32 ∧ baud < 2 ^ 32 ∧ delay < 2 ^ 32 ∧ bidir < 2 := by
    simpa [AsmLine.wellFormed, AsmLine.ranges] using h
  have hbidirField : bidirField c.cw = (bidir == 1) := bidirField_commandWord ..
  rw [hbidirField]
  exact ⟨decode_commandOf chan _, toNat_beq_one hbidir, toNat_ofNat_of_lt hres, toNat_ofNat_of_lt hbaud,
    toNat_ofNat_of_lt hdelay⟩

/-! ### The forms of a line -/

theorem lineForm_of_lineOf {mnemonic : List Char} {ops : List Nat} {l : AsmLine} (h : lineOf mnemonic ops = some l) :
    Claim.LineForm mnemonic ops l := by
  unfold lineOf at h
  split at h
  · next hencode =>
    refine .inl ⟨hencode, ?_⟩
    split at h
    · next thr =>
      cases h
      exact .inr ⟨thr, rfl, rfl⟩
    · next thr tlm =>
      cases h
      exact .inl ⟨thr, tlm, rfl, rfl⟩
    · cases h
  split at h
  · next hreset =>
    obtain ⟨hops, hl⟩ : ops = [] ∧ AsmLine.reset = l := by simpa using h
    exact .inr (.inl ⟨hreset, hops, hl.symm⟩)
  split at h
  · next hdestroy =>
    obtain ⟨hops, hl⟩ : ops = [] ∧ AsmLine.destroy = l := by simpa using h
    exact .inr (.inr (.inl ⟨hdestroy, hops, hl.symm⟩))
  split at h
  · next hconstruct =>
    split at h
    · next res baud delay bidir =>
      cases h
      exact .inr (.inr (.inr (.inl ⟨hconstruct, res, baud, delay, bidir, rfl, rfl⟩)))
    · cases h
  split at h
  · next hbuildFrame =>
    refine .inr (.inr (.inr (.inr ⟨hbuildFrame, ?_⟩)))
    split at h
    · next thr tlm =>
      cases h
      exact .inr ⟨thr, tlm, rfl, rfl⟩
    · next thr tlm bidir =>
      cases h
      exact .inl ⟨thr, tlm, bidir, rfl, rfl⟩
    · cases h
  · cases h

theorem lineOf_of_lineForm {mnemonic : List Char} {ops : List Nat} {l : AsmLine} (h : Claim.LineForm mnemonic ops l) :
    lineOf mnemonic ops = some l := by
  obtain ⟨rfl, ⟨thr, tlm, rfl, rfl⟩ | ⟨thr, rfl, rfl⟩⟩ | ⟨rfl, rfl, rfl⟩ | ⟨rfl, rfl, rfl⟩ |
    ⟨rfl, res, baud, delay, bidir, rfl, rfl⟩ | ⟨rfl, ⟨thr, tlm, bidir, rfl, rfl⟩ | ⟨thr, tlm, rfl, rfl⟩⟩ := h
  all_goals rfl

/-- Settles O6: a line's word is the encoding of its command, whose fields hold the operands because the ranges of R80 are those of the
fields; and `lineOf` knows the forms of R80 and R81 alone. -/
theorem assembledLineKeepsItsOperands : Obligations.AssembledLineKeepsItsOperands :=
  ⟨fun chan l _ => ⟨decode_commandOf chan l, commandOf_chan chan l⟩, fun _ _ _ => commandOf_encode_fields,
    fun _ _ _ _ => commandOf_buildFrame_fields, fun _ _ _ _ _ => commandOf_construct_operands, fun _ => ⟨rfl, rfl, rfl⟩,
    fun _ _ _ => ⟨lineForm_of_lineOf, lineOf_of_lineForm⟩, by decide⟩

end Sys2Proof.Machine
end

section
/-! PROOFS. The result codes (30_encoding.md R85, 60_exceptions.md R233). -/

namespace Sys2Proof.Machine

/-- The codes a command can return. -/
def codesOf : Instr → List (BitVec 2)
  | .construct _ => [codeOk, codeOutOfMemory]
  | .constructNull => [codeInvalidArgument]
  | _ => [codeOk]

/-- If the command returned, its code is one of `ks`. -/
def ReturnsIn (ks : List (BitVec 2)) (t : State) : Prop := ∀ m, t.ended = .returned m → ∃ k ∈ ks, t.res.code = some k

section
variable {ks : List (BitVec 2)} {s t : State}

theorem ReturnsIn.addFault {f : Fault} : ReturnsIn ks (s.addFault f) := fun _ h => nomatch h

theorem ReturnsIn.markRefused {r : Refusal} : ReturnsIn ks (s.markRefused r) := fun _ h => nomatch h

theorem ReturnsIn.writeResults {k : BitVec 2} {n : Option Word} {f : Option (BitVec 2)} {w : Option Half} (hk : k ∈ ks) :
    ReturnsIn ks (s.writeResults k n f w) := fun _ _ => ⟨k, hk, rfl⟩

theorem misbehaved_returnsIn {d : Delegate} {a : Option Answer} (h : misbehaved d a s = .next t) : ReturnsIn ks t := by
  rw [misbehaved_next h]
  exact .addFault

theorem gapPhase_returnsIn {n : Nat} {p : Phase} (h : gapPhase n p s = .next t) : ReturnsIn [codeOk] t := by
  obtain ⟨r, rfl, -⟩ | ⟨g, a, -, -, -, ⟨-, rfl⟩ | ⟨-, rfl⟩⟩ := gapPhase_cases h
  · exact .addFault
  · exact .writeResults (.head _)
  · exact .addFault

theorem framePhase_returnsIn (h : framePhase s = .next t) : ReturnsIn [codeOk] t := by
  obtain ⟨r, rfl, -⟩ | ⟨pos, unit, a, v, -, -, -, -, ⟨-, rfl⟩ | ⟨-, ⟨f, -, rfl⟩ | ⟨-, h⟩⟩⟩ := framePhase_cases h
  · exact .addFault
  · exact .addFault
  · exact .writeResults (.head _)
  · exact gapPhase_returnsIn h

theorem exec_returnsIn {i : Instr} (h : exec i s = .next t) : ReturnsIn (codesOf i) t := by
  cases i with
  | encode thr tlm =>
    obtain ⟨-, rfl⟩ | ⟨-, -, rfl⟩ | ⟨-, -, -, rfl⟩ | ⟨b, -, -, -, ⟨-, rfl⟩ | ⟨-, h⟩ | ⟨-, h⟩⟩ := execEncode_cases h
    · exact .addFault
    · exact .markRefused
    · exact .addFault
    · exact .addFault
    · exact framePhase_returnsIn h
    · exact gapPhase_returnsIn h
  | reset =>
    obtain ⟨-, rfl⟩ | ⟨-, -, h⟩ | ⟨-, -, -, h⟩ | ⟨-, -, -, rfl⟩ := execReset_cases h
    · exact .addFault
    · exact misbehaved_returnsIn h
    · exact misbehaved_returnsIn h
    · exact .writeResults (.head _)
  | destroy =>
    obtain ⟨-, rfl⟩ | ⟨-, -, h⟩ | ⟨-, -, -, h⟩ | ⟨-, -, -, rfl⟩ := execDestroy_cases h
    · exact .addFault
    · exact misbehaved_returnsIn h
    · exact misbehaved_returnsIn h
    · exact .writeResults (.head _)
  | construct bidir =>
    obtain ⟨-, rfl⟩ | ⟨-, rfl⟩ | ⟨-, rfl⟩ | ⟨-, -, -, -, rfl⟩ := execConstruct_cases h
    · exact .addFault
    · exact .markRefused
    · exact .writeResults (.tail _ (.head _))
    · exact .writeResults (.head _)
  | constructNull =>
    obtain ⟨-, rfl⟩ | ⟨-, rfl⟩ := execConstructNull_cases h
    · exact .addFault
    · exact .writeResults (.head _)
  | buildFrame thr tlm bidir =>
    cases h
    exact .writeResults (.head _)

end

/-- Settles O50: the codes of each command are at most `OK`, `InvalidArgument` and `OutOfMemory`, and CONSTRUCT alone has another code
than `OK`. -/
theorem resultCodes : Obligations.ResultCodes := by
  intro i s t m h hreturned
  obtain ⟨k, hk, hcode⟩ := exec_returnsIn h m hreturned
  rw [hcode]
  cases i with
  | construct bidir =>
    refine ⟨?_, fun hne => absurd rfl (hne bidir)⟩
    obtain rfl | rfl : k = codeOk ∨ k = codeOutOfMemory := by simpa [codesOf] using hk
    · exact .inl rfl
    · exact .inr (.inr rfl)
  | constructNull =>
    obtain rfl := List.mem_singleton.1 hk
    exact ⟨.inr (.inl rfl), fun _ hne => absurd rfl hne⟩
  | encode _ _ | reset | destroy | buildFrame _ _ _ =>
    obtain rfl := List.mem_singleton.1 hk
    exact ⟨.inl rfl, fun _ _ => rfl⟩

end Sys2Proof.Machine
end

section
/-! PROOFS. The frame builder (40_frame_builder.md R100 to R109): its frame is a concatenation of fields, which are read back from it. -/

namespace Sys2Proof.Machine

/-! ### The fields of a frame -/

/-- The telemetry bit stands below the throttle's low 11 bits (40_frame_builder.md R106). -/
theorem payload_fields (thr : Half) (tlm : Bool) :
    (Claim.payload thr tlm).extractLsb' 1 11 = thr.extractLsb' 0 11 ∧ (Claim.payload thr tlm).getLsbD 0 = tlm :=
  ⟨BitVec.extractLsb'_append_eq_left, getElem_payload thr tlm 0 (by decide)⟩

/-- The fields of 30_encoding.md R82 in a payload followed by a nibble. -/
theorem payload_append_fields (thr : Half) (tlm : Bool) (q : BitVec 4) :
    let f : Half := Claim.payload thr tlm ++ q
    f.extractLsb' 5 11 = thr.extractLsb' 0 11 ∧ f.getLsbD 4 = tlm ∧ f.extractLsb' 0 4 = q := by
  obtain ⟨hthr, htlm⟩ := payload_fields thr tlm
  refine ⟨?_, ?_, BitVec.extractLsb'_append_eq_right⟩
  · exact (BitVec.extractLsb'_append_eq_of_le (by decide)).trans hthr
  · exact (BitVec.getLsbD_append ..).trans htlm

/-- Settles O11: the packed value is the payload followed by an empty nibble. -/
theorem packedValueLayout : Obligations.PackedValueLayout := fun thr tlm =>
  ⟨rfl, packFrame_eq_append thr tlm ▸ payload_append_fields thr tlm 0#4⟩

/-! ### The CRC -/

theorem crcOfSeed_eq_extractLsb' (seed : BitVec 16) : crcOfSeed seed = seed.extractLsb' 4 4 := by
  ext i hi
  interval_cases i <;> simp [crcOfSeed]

theorem setWidth_mask_after_shift (seed : BitVec 16) : ((seed >>> 4) &&& 0x000F#16).setWidth 4 = seed.extractLsb' 4 4 := by
  ext i hi
  interval_cases i <;> simp

/-- Settles O12: both orders pick `seed[7:4]`. -/
theorem crcIsNibbleOfSeed : Obligations.CrcIsNibbleOfSeed := fun seed =>
  ⟨rfl, crcOfSeed_eq_extractLsb' seed, (crcOfSeed_eq_extractLsb' seed).trans (setWidth_mask_after_shift seed).symm⟩

/-- Shifting out the empty CRC nibble leaves the payload. -/
theorem append_nibble_ushiftRight (p : BitVec 12) : (p ++ 0#4 : BitVec 16) >>> 4 = p.setWidth 16 := by
  have happend : (p ++ 0#4 : BitVec 16).toNat = p.toNat <<< 4 ||| 0 := BitVec.toNat_append p 0#4
  apply BitVec.eq_of_toNat_eq
  rw [BitVec.toNat_ushiftRight, happend, Nat.or_zero, Nat.shiftLeft_shiftRight, BitVec.toNat_setWidth_of_le (by decide)]

/-- The two closed forms of the CRC agree before the complement (40_frame_builder.md R106). -/
theorem lowNibble_xor_shifts (p : BitVec 12) :
    ((p ^^^ (p >>> 4) ^^^ (p >>> 8)) &&& 0xF#12).setWidth 4 = p.extractLsb' 0 4 ^^^ p.extractLsb' 4 4 ^^^ p.extractLsb' 8 4 := by
  ext i hi
  interval_cases i <;> simp

theorem crcOf_packFrame (thr : Half) (tlm bidir : Bool) :
    crcOf (packFrame thr tlm) bidir = Claim.crc (Claim.payload thr tlm) bidir := by
  rw [packFrame_eq_append, crcOf_append]

/-- Settles O13: the seed is taken of the payload followed by an empty nibble, and the shifts line its three nibbles up. -/
theorem crcClosedForm : Obligations.CrcClosedForm := by
  intro thr tlm bidir
  refine ⟨?_, crcOf_packFrame thr tlm bidir, ?_⟩
  · rw [packFrame_eq_append, append_nibble_ushiftRight]
  · dsimp only
    rw [crcOf_packFrame, lowNibble_xor_shifts, Claim.crc]

/-! ### The byte swap -/

/-- The bytes of a swapped value are the lanes that the frame buffer is read by. -/
theorem swapBytes_bytes (f : Half) :
    (swapBytes f).extractLsb' 8 8 = f.extractLsb' 0 8 ∧ (swapBytes f).extractLsb' 0 8 = f.extractLsb' 8 8 :=
  ⟨fbRead_swapBytes_one f, fbRead_swapBytes_zero f⟩

/-- Settles O14: the formula is the definition, and the two bytes are exchanged. -/
theorem swapExchangesTheBytes : Obligations.SwapExchangesTheBytes := fun f => ⟨rfl, swapBytes_bytes f⟩

theorem swapBytes_eq_append (f : Half) : swapBytes f = f.extractLsb' 0 8 ++ f.extractLsb' 8 8 := by
  obtain ⟨hhigh, hlow⟩ := swapBytes_bytes f
  rw [← hhigh, ← hlow]
  exact (BitVec.extractLsb'_append_extractLsb' (w := 8) (len := 8)).symm

theorem unswap_swapBytes (f : Half) : Claim.unswap (swapBytes f) = f := by
  obtain ⟨hhigh, hlow⟩ := swapBytes_bytes f
  rw [Claim.unswap, hhigh, hlow]
  exact BitVec.extractLsb'_append_extractLsb' (w := 8) (len := 8)

/-! ### The wire-order frame -/

theorem wireFrame_eq_wire (thr : Half) (tlm bidir : Bool) : wireFrame thr tlm bidir = Claim.wire thr tlm bidir := by
  rw [wireFrame, frameValue_eq_frame, swapBytes_eq_append, Claim.wire]

/-- The throttle read back as a number from its field of the frame. -/
theorem toNat_ushiftRight_of_throttle {f thr : Half} (h : f.extractLsb' 5 11 = thr.extractLsb' 0 11) :
    (f >>> 5).toNat = thr.toNat % 2048 := by
  have hfield := congrArg BitVec.toNat h
  simp only [BitVec.extractLsb'_toNat, Nat.shiftRight_eq_div_pow] at hfield
  rw [BitVec.toNat_ushiftRight, Nat.shiftRight_eq_div_pow]
  omega

/-- Settles O15: undoing the swap gives the frame, whose fields are the throttle, the telemetry bit and the CRC of the payload. -/
theorem wireFrameRoundTrip : Obligations.WireFrameRoundTrip := by
  intro thr tlm bidir
  dsimp only
  rw [wireFrame, unswap_swapBytes, frameValue_eq_frame]
  obtain ⟨hthr, htlm, hcrc⟩ := payload_append_fields thr tlm (Claim.crc (Claim.payload thr tlm) bidir)
  have hpayload : (Claim.frame thr tlm bidir).extractLsb' 4 12 = Claim.payload thr tlm := BitVec.extractLsb'_append_eq_left
  have hrecovered := toNat_ushiftRight_of_throttle hthr
  refine ⟨rfl, hthr, htlm, ?_, hrecovered, fun hle => ?_⟩
  · rw [hpayload]
    exact hcrc
  · exact hrecovered.trans (Nat.mod_eq_of_lt (Nat.lt_succ_of_le hle))

/-- Settles O16: BUILD_FRAME runs on every state and returns the wire-order frame. -/
theorem buildFrameWritesTheWireFrame : Obligations.BuildFrameWritesTheWireFrame := by
  intro thr tlm bidir s
  rw [exec, execBuildFrame_eq, wireFrame_eq_wire]
  rfl

end Sys2Proof.Machine
end

section
/-! PROOFS. ENCODE whoever the collaborators are (41_orchestrator.md R130 to R139): each delegate call either meets the contract and
gives one row of an outcome table, or ends the command in a fault. Then what moves `PHASE`, over all commands, with RESET and DESTROY. -/

namespace Sys2Proof.Machine

/-! ### The contract -/

/-- The check of an answer is the five obligations of 43_subencoders.md R201. -/
theorem contractMet_iff (F pos : Nat) (unit : List Symbol) (a : Answer) :
    contractMet F pos unit a = true ↔ Claim.Contract F pos unit a := by
  have hcomplete : a.flags.complete = decide (pos + a.n = unit.length) ↔
      (a.flags.complete = true ↔ pos + a.n = unit.length) := by
    rw [Bool.eq_iff_iff, decide_eq_true_iff]
  simp only [contractMet, Claim.Contract, Bool.and_eq_true, Bool.or_eq_true, Bool.not_eq_true', decide_eq_true_eq, hcomplete,
    and_assoc, ← Decidable.imp_iff_not_or, ne_eq]

@[simp] theorem bitSymbols_length (f : Half) (bit1 bit0 : Symbol) : (Claim.bitSymbols f bit1 bit0).length = 16 := by
  simp [Claim.bitSymbols]

/-! ### The gap phase -/

section
variable {n : Nat} {p : Phase} {gap : Symbol} {s : State}

theorem gapPhase_of_contract (hpos : s.gapPos = some 0) (hgap : s.sym.gap = some gap)
    (hc : Claim.Contract s.free 0 [gap] (gapAnswer s 0 [gap])) :
    gapPhase n p s = .next (Claim.afterGap n p (gapAnswer s 0 [gap]) s) := by
  rw [gapPhase, callGap_eq hpos hgap, finishGapCall, Fin.val_zero, if_pos ((contractMet_iff ..).2 hc), gapPos_eq_zero (nextGapPos _ _)]
  rfl

theorem gapPhase_of_broken (hpos : s.gapPos = some 0) (hgap : s.sym.gap = some gap)
    (hc : ¬ Claim.Contract s.free 0 [gap] (gapAnswer s 0 [gap])) :
    gapPhase n p s = .next ((s.appendAll s.opChan (gapAnswer s 0 [gap]).symbols).addFault
      (.collaboratorContractViolation s.cmd.cw .gap (gapAnswer s 0 [gap]).n (gapAnswer s 0 [gap]).flags)) := by
  rw [gapPhase, callGap_eq hpos hgap, finishGapCall, Fin.val_zero, if_neg (mt (contractMet_iff ..).1 hc), raiseFault_eq]

end

/-! ### ENCODE past its checks -/

section
variable {thr : Half} {tlm bidir : Bool} {s t : State}

theorem encode_of_awaitingFrame {bit1 bit0 : Symbol} {pos : Fin 16} (h : Claim.AwaitsFrame s bidir bit1 bit0 pos) :
    exec (.encode thr tlm) s = framePhase (s.writeFrame (Claim.wire thr tlm bidir)) := by
  obtain ⟨hlive, hown, hbidir, hphase, -, -, -⟩ := h
  simp only [exec, execEncode, hlive, hown, hbidir, need_some, State.writeFrame_phase, hphase, wireFrame_eq_wire]
  rfl

theorem encode_of_awaitingGap {gap : Symbol} (h : Claim.AwaitsGap s bidir gap) :
    exec (.encode thr tlm) s = gapPhase 0 .awaitingGap (s.writeFrame (Claim.wire thr tlm bidir)) := by
  obtain ⟨hlive, hown, hbidir, hphase, -, -⟩ := h
  simp only [exec, execEncode, hlive, hown, hbidir, need_some, State.writeFrame_phase, hphase, wireFrame_eq_wire]
  rfl

end

/-- Settles O26: the gap phase on the state with the rebuilt frame. -/
theorem gapPhaseOutcomeTable : Obligations.GapPhaseOutcomeTable := by
  rintro thr tlm bidir gap s g h rfl hc
  obtain ⟨-, -, -, -, hpos, hgap⟩ := id h
  rw [encode_of_awaitingGap h, gapPhase_of_contract (s := s.writeFrame _) hpos hgap hc]
  rfl

/-! ### The frame phase -/

/-- The SSE's position after a call that met its contract (43_subencoders.md R201, R202). -/
theorem nextSsePos_eq_ofNat {pos : Fin 16} {n : Nat} (h : pos.val + n ≤ 16) : nextSsePos pos n = Fin.ofNat 16 (pos.val + n) := by
  unfold nextSsePos
  split
  · next hlt => exact Fin.ext (Nat.mod_eq_of_lt hlt).symm
  · next hge => rw [show pos.val + n = 16 by omega]; rfl

theorem finishSseCall_of_contract {thr : Half} {tlm bidir : Bool} {bit1 bit0 : Symbol} {pos : Fin 16} {s : State} {a : Answer}
    (hc : Claim.Contract s.free pos.val (Claim.bitSymbols (Claim.frame thr tlm bidir) bit1 bit0) a)
    (k : Nat → FlagSet → State → Result) :
    finishSseCall (s.writeFrame (Claim.wire thr tlm bidir)) pos (Claim.bitSymbols (Claim.frame thr tlm bidir) bit1 bit0) a k =
      k a.n a.flags (Claim.afterSse thr tlm bidir pos a s) := by
  obtain ⟨⟨-, hn⟩, -⟩ := id hc
  rw [bitSymbols_length] at hn
  rw [finishSseCall, State.writeFrame_free, if_pos ((contractMet_iff ..).2 hc), nextSsePos_eq_ofNat (by omega)]
  rfl

section
variable {thr : Half} {tlm bidir : Bool} {bit1 bit0 : Symbol} {pos : Fin 16} {s : State} {a : Answer}
  (h : Claim.AwaitsFrame s bidir bit1 bit0 pos)
  (ha : a = sseAnswer s pos.val (Claim.bitSymbols (Claim.frame thr tlm bidir) bit1 bit0))
include h ha

theorem callSse_writeFrame (k : Nat → FlagSet → State → Result) :
    callSse (s.writeFrame (Claim.wire thr tlm bidir)) k =
      finishSseCall (s.writeFrame (Claim.wire thr tlm bidir)) pos (Claim.bitSymbols (Claim.frame thr tlm bidir) bit1 bit0) a k := by
  obtain ⟨-, -, -, -, hpos, hbit1, hbit0⟩ := h
  have hunit : sseUnit s.bitOrder bit1 bit0 (Claim.wire thr tlm bidir) frameBytes =
      Claim.bitSymbols (Claim.frame thr tlm bidir) bit1 bit0 := by
    cases s.bitOrder
    rw [← wireFrame_eq_wire, payloadIsSentMostSignificantFirst]
  rw [callSse_eq (s := s.writeFrame _) hpos rfl hbit1 hbit0, State.writeFrame_bitOrder, hunit, ha]
  rfl

theorem encode_of_broken (hc : ¬ Claim.Contract s.free pos.val (Claim.bitSymbols (Claim.frame thr tlm bidir) bit1 bit0) a) :
    exec (.encode thr tlm) s = .next (((s.writeFrame (Claim.wire thr tlm bidir)).appendAll s.opChan a.symbols).addFault
      (.collaboratorContractViolation s.cmd.cw .sse a.n a.flags)) := by
  rw [encode_of_awaitingFrame h, framePhase, callSse_writeFrame h ha, finishSseCall, State.writeFrame_free,
    if_neg (mt (contractMet_iff ..).1 hc)]
  rfl

variable (hc : Claim.Contract s.free pos.val (Claim.bitSymbols (Claim.frame thr tlm bidir) bit1 bit0) a)
include hc

/-- The rows that return without the gap phase (41_orchestrator.md R133, R134). -/
theorem encode_of_stop {f : FlagSet} (hstop : afterFrame s.par.neitherPolicy a.flags = .stop f) :
    exec (.encode thr tlm) s =
      .next (((Claim.afterSse thr tlm bidir pos a s).setPhase (phaseAfterFrame a.flags .awaitingFrame)).writeResults codeOk
        (some (BitVec.ofNat 32 a.n)) (some f.encode) none) := by
  rw [encode_of_awaitingFrame h, framePhase, callSse_writeFrame h ha, finishSseCall_of_contract hc, State.writeFrame_par,
    hstop]
  rfl

/-- The rows that go on to the gap phase. -/
theorem encode_of_gapPhase (hgap : afterFrame s.par.neitherPolicy a.flags = .gapPhase) :
    exec (.encode thr tlm) s = gapPhase a.n (phaseAfterFrame a.flags .awaitingFrame)
      ((Claim.afterSse thr tlm bidir pos a s).setPhase (phaseAfterFrame a.flags .awaitingFrame)) := by
  rw [encode_of_awaitingFrame h, framePhase, callSse_writeFrame h ha, finishSseCall_of_contract hc, State.writeFrame_par,
    hgap]

end

theorem afterSse_free {thr : Half} {tlm bidir : Bool} {pos : Fin 16} {unit : List Symbol} {a : Answer} {s : State}
    (hc : Claim.Contract s.free pos.val unit a) : (Claim.afterSse thr tlm bidir pos a s).free = s.free - a.n := by
  obtain ⟨-, ⟨hlength, -⟩, -⟩ := hc
  simp [Claim.afterSse, hlength]

/-- Settles O25: `afterFrame` reads the row off the flag set; where the gap phase follows, it runs on the space the SSE left. -/
theorem framePhaseOutcomeTable : Obligations.FramePhaseOutcomeTable := by
  intro thr tlm bidir bit1 bit0 pos s a h ha hc
  refine ⟨fun hf => ?_, fun hf => ?_, fun hf hpolicy => ?_, fun gap g p hpos hgap hrow hg hcgap => ?_⟩
  · rw [encode_of_stop h ha hc (f := bufferFullOnly) (by rw [hf]; rfl), hf]
    rfl
  · rw [encode_of_stop h ha hc (f := bufferFullOnly) (by rw [hf]; rfl), hf]
    rfl
  · rw [encode_of_stop h ha hc (f := noFlags) (by rw [hf, hpolicy]; rfl), hf]
    rfl
  · obtain ⟨hgo, rfl⟩ : afterFrame s.par.neitherPolicy a.flags = .gapPhase ∧ phaseAfterFrame a.flags .awaitingFrame = p := by
      obtain ⟨hf, rfl⟩ | ⟨hf, hpolicy, rfl⟩ := hrow
      · rw [hf]
        exact ⟨rfl, rfl⟩
      · rw [hf, hpolicy]
        exact ⟨rfl, rfl⟩
    subst hg
    rw [encode_of_gapPhase h ha hc hgo]
    refine gapPhase_of_contract ?_ ?_ ?_
    · simpa [Claim.afterSse] using hpos
    · simpa [Claim.afterSse] using hgap
    · rw [State.setPhase_free, afterSse_free hc]
      exact hcgap

/-! ### The frame register -/

theorem gapPhase_frameReg {n : Nat} {p : Phase} {s t : State} (h : gapPhase n p s = .next t) : t.frameReg = s.frameReg := by
  obtain ⟨r, rfl, -⟩ | ⟨g, a, -, -, -, ⟨-, rfl⟩ | ⟨-, rfl⟩⟩ := gapPhase_cases h
  · rfl
  · simp
  · simp

theorem framePhase_frameReg {s t : State} (h : framePhase s = .next t) : t.frameReg = s.frameReg := by
  obtain ⟨r, rfl, -⟩ | ⟨pos, unit, a, u, -, -, -, rfl, ⟨-, rfl⟩ | ⟨-, ⟨f, -, rfl⟩ | ⟨-, h⟩⟩⟩ := framePhase_cases h
  · rfl
  · simp
  · simp
  · simpa using gapPhase_frameReg h

/-- ENCODE reads the frame register only after it has written it (41_orchestrator.md R131). -/
theorem execEncode_frameReg_irrelevant {thr : Half} {tlm bidir : Bool} {s : State} (hlive : s.inst = .live)
    (hown : s.cmd.shared = false) (hbidir : s.cfg.bidir = some bidir) (old : Option Half) :
    execEncode thr tlm { s with frameReg := old } = execEncode thr tlm s := by
  have hown' : ¬ s.cmd.shared = true := by simp [hown]
  unfold execEncode
  simp only [if_neg (not_not.2 hlive), if_neg hown', hbidir, need_some]
  rfl

/-- Settles O28: both phases keep the frame that the command has built, and neither sees the frame of an earlier one. -/
theorem encodeRebuildsTheFrame : Obligations.EncodeRebuildsTheFrame := by
  intro thr tlm bidir s t hlive hown hbidir h
  refine ⟨?_, fun old => (execEncode_frameReg_irrelevant hlive hown hbidir old).trans h⟩
  rw [← wireFrame_eq_wire]
  obtain ⟨hdead, -⟩ | ⟨-, hshared, -⟩ | ⟨-, -, hnone, -⟩ | ⟨b, -, -, hb, h⟩ := execEncode_cases h
  · exact absurd hlive hdead
  · simp [hown] at hshared
  · simp [hbidir] at hnone
  obtain rfl : bidir = b := by simpa [hbidir] using hb
  obtain ⟨-, rfl⟩ | ⟨-, h⟩ | ⟨-, h⟩ := h
  · rfl
  · simpa using framePhase_frameReg h
  · simpa using gapPhase_frameReg h

theorem State.appendAll_writeFrame (c : Chan) (ys : List Symbol) (w : Half) (s : State) :
    (s.writeFrame w).appendAll c ys = (s.appendAll c ys).writeFrame w := by
  simp only [State.appendAll_eq, State.writeFrame]

/-- The gap phase passes the frame register through (41_orchestrator.md R135). -/
theorem gapPhase_writeFrame {n : Nat} {p : Phase} {gap : Symbol} {s t : State} (hpos : s.gapPos = some 0)
    (hgap : s.sym.gap = some gap) (h : gapPhase n p s = .next t) (w : Half) :
    gapPhase n p (s.writeFrame w) = .next (t.writeFrame w) := by
  by_cases hc : Claim.Contract s.free 0 [gap] (gapAnswer s 0 [gap])
  · rw [gapPhase_of_contract hpos hgap hc] at h
    cases h
    rw [gapPhase_of_contract (s := s.writeFrame w) hpos hgap hc, Claim.afterGap, State.appendAll_writeFrame]
    rfl
  · rw [gapPhase_of_broken hpos hgap hc] at h
    cases h
    rw [gapPhase_of_broken (s := s.writeFrame w) hpos hgap hc, State.appendAll_writeFrame]
    rfl

/-- Settles O29: the second command runs the same gap phase with its own frame in the frame register. -/
theorem gapPhaseIgnoresTheInput : Obligations.GapPhaseIgnoresTheInput := by
  intro thr thr' tlm tlm' bidir gap s t h hexec
  obtain ⟨-, -, -, -, hpos, hgap⟩ := id h
  rw [encode_of_awaitingGap h] at hexec ⊢
  exact gapPhase_writeFrame (s := s.writeFrame _) hpos hgap hexec _

/-! ### RESET and DESTROY -/

/-- Settles O36: quiet collaborators let both resets through. -/
theorem resetRestoresTheInitialPhase : Obligations.ResetRestoresTheInitialPhase := by
  intro s hlive hsse hgap
  rw [← quiet_eq_true_iff] at hsse hgap
  rw [exec, execReset, if_neg (not_not.2 hlive), callSseReset, if_pos hsse, callGapReset, State.setSsePos_cmd, if_pos hgap]
  rfl

/-- Settles O37: quiet collaborators let both destroys through, and the orchestrator then releases its own registers. -/
theorem destroyReleasesTheInstance : Obligations.DestroyReleasesTheInstance := by
  intro s hlive hsse hgap
  rw [← quiet_eq_true_iff] at hsse hgap
  rw [exec, execDestroy, if_neg (not_not.2 hlive), callSseDestroy, if_pos hsse, callGapDestroy, State.dropSse_cmd, if_pos hgap]
  rfl

/-! ### Complete -/

theorem not_reportsComplete_addFault (f : Fault) (s : State) : ¬ Claim.reportsComplete (s.addFault f) := nofun

theorem not_reportsComplete_markRefused (r : Refusal) (s : State) : ¬ Claim.reportsComplete (s.markRefused r) := nofun

/-- After an ENCODE that returned, Complete is read where the flag set held it (30_encoding.md R84). -/
theorem reportsComplete_writeResults_iff {k : BitVec 2} {n : Option Word} {f : FlagSet} {w : Option Half} {s : State} :
    Claim.reportsComplete (s.writeResults k n (some f.encode) w) ↔ f.complete = true := by
  obtain ⟨-, -, -, -, hencode⟩ := flagSetEncoding
  obtain ⟨hcomplete, -⟩ := hencode f
  rw [Claim.reportsComplete, State.hostReads_writeResults, Option.map_some, Option.some_inj, hcomplete]

theorem gapPhase_complete {n : Nat} {p : Phase} {s t : State} (h : gapPhase n p s = .next t) (ht : Claim.reportsComplete t) :
    t.phase = some .awaitingFrame := by
  obtain ⟨r, rfl, -⟩ | ⟨g, a, -, -, -, ⟨-, rfl⟩ | ⟨-, rfl⟩⟩ := gapPhase_cases h
  · exact absurd ht (not_reportsComplete_addFault _ _)
  · have hcomplete : a.flags.complete = true := reportsComplete_writeResults_iff.1 ht
    simp [phaseAfterGap, hcomplete]
  · exact absurd ht (not_reportsComplete_addFault _ _)

/-- A command that stops after the frame phase does not report Complete (41_orchestrator.md R133). -/
theorem afterFrame_stop_complete {policy : NeitherPolicy} {flags f : FlagSet} (h : afterFrame policy flags = .stop f) :
    f.complete = false := by
  unfold afterFrame at h
  split at h
  · cases h; rfl
  split at h
  · cases h
  split at h
  · cases h; rfl
  · cases h

theorem framePhase_complete {s t : State} (h : framePhase s = .next t) (ht : Claim.reportsComplete t) :
    t.phase = some .awaitingFrame := by
  obtain ⟨r, rfl, -⟩ | ⟨pos, unit, a, u, -, -, -, rfl, ⟨-, rfl⟩ | ⟨-, ⟨f, hstop, rfl⟩ | ⟨-, h⟩⟩⟩ := framePhase_cases h
  · exact absurd ht (not_reportsComplete_addFault _ _)
  · exact absurd ht (not_reportsComplete_addFault _ _)
  · have hcomplete : f.complete = true := reportsComplete_writeResults_iff.1 ht
    simp [afterFrame_stop_complete hstop] at hcomplete
  · exact gapPhase_complete h ht

/-- Settles O31: of the endings of ENCODE only the return of a completed gap reports Complete; RESET writes the phase. -/
theorem completeLeavesAwaitingFrame : Obligations.CompleteLeavesAwaitingFrame := by
  refine ⟨fun thr tlm s t h ht => ?_, fun s hlive hsse hgap => ⟨_, resetRestoresTheInitialPhase s hlive hsse hgap, rfl⟩⟩
  obtain ⟨-, rfl⟩ | ⟨-, -, rfl⟩ | ⟨-, -, -, rfl⟩ | ⟨b, -, -, -, h⟩ := execEncode_cases h
  · exact absurd ht (not_reportsComplete_addFault _ _)
  · exact absurd ht (not_reportsComplete_markRefused _ _)
  · exact absurd ht (not_reportsComplete_addFault _ _)
  obtain ⟨-, rfl⟩ | ⟨-, h⟩ | ⟨-, h⟩ := h
  · exact absurd ht (not_reportsComplete_addFault _ _)
  · exact framePhase_complete h ht
  · exact gapPhase_complete h ht

/-! ### The moves of PHASE -/

/-- The gap phase, entered with `PHASE = p`, moves it only where the GAP completed, and leaves the SSE alone. -/
theorem gapPhase_moves {n : Nat} {p : Phase} {s t : State} (hp : s.phase = some p) (h : gapPhase n p s = .next t) :
    t.ssePos = s.ssePos ∧ (t.phase = some p ∨ t.phase = some .awaitingFrame ∧
      ∀ gap, s.sym.gap = some gap → (gapAnswer s 0 [gap]).flags.complete = true) := by
  obtain ⟨r, rfl, -⟩ | ⟨g, a, -, hg, rfl, ⟨-, rfl⟩ | ⟨-, rfl⟩⟩ := gapPhase_cases h
  · exact ⟨rfl, .inl hp⟩
  · refine ⟨by simp, ?_⟩
    by_cases hcomplete : (gapAnswer s 0 [g]).flags.complete = true
    · refine .inr ⟨by simp [phaseAfterGap, hcomplete], fun gap hgap => ?_⟩
      obtain rfl : g = gap := by simpa [hg] using hgap
      exact hcomplete
    · exact .inl (by simp [phaseAfterGap, hcomplete])
  · exact ⟨by simp, .inl (by simpa using hp)⟩

theorem phaseAfterFrame_eq_awaitingGap {f : FlagSet} (h : phaseAfterFrame f .awaitingFrame = .awaitingGap) : f.complete = true := by
  unfold phaseAfterFrame at h
  split at h
  · next hcomplete => exact hcomplete
  · cases h

/-- The frame phase of an ENCODE goes on to await the gap only with the SSE's unit complete, and then `SSE_POS` is 0. -/
theorem encode_to_awaitingGap {thr : Half} {tlm bidir : Bool} {bit1 bit0 : Symbol} {pos : Fin 16} {s t : State} {a : Answer}
    (h : Claim.AwaitsFrame s bidir bit1 bit0 pos)
    (ha : a = sseAnswer s pos.val (Claim.bitSymbols (Claim.frame thr tlm bidir) bit1 bit0))
    (hexec : exec (.encode thr tlm) s = .next t) (ht : t.phase = some .awaitingGap) :
    a.flags.complete = true ∧ t.ssePos = some 0 := by
  by_cases hc : Claim.Contract s.free pos.val (Claim.bitSymbols (Claim.frame thr tlm bidir) bit1 bit0) a
  case neg =>
    obtain ⟨-, -, -, hphase, -⟩ := id h
    rw [encode_of_broken h ha hc] at hexec
    cases hexec
    simp [hphase] at ht
  suffices hmoved : phaseAfterFrame a.flags .awaitingFrame = .awaitingGap ∧
      t.ssePos = (Claim.afterSse thr tlm bidir pos a s).ssePos by
    obtain ⟨hphase, hpos⟩ := hmoved
    have hcomplete := phaseAfterFrame_eq_awaitingGap hphase
    obtain ⟨-, -, -, hiff, -⟩ := hc
    have hend : pos.val + a.n = 16 := (hiff.1 hcomplete).trans (bitSymbols_length ..)
    exact ⟨hcomplete, hpos.trans (by rw [Claim.afterSse, State.setSsePos_ssePos, hend]; rfl)⟩
  cases hrow : afterFrame s.par.neitherPolicy a.flags with
  | stop f =>
    rw [encode_of_stop h ha hc hrow] at hexec
    cases hexec
    exact ⟨by simpa using ht, rfl⟩
  | gapPhase =>
    rw [encode_of_gapPhase h ha hc hrow] at hexec
    obtain ⟨hpos, hsame | ⟨hback, -⟩⟩ := gapPhase_moves rfl hexec
    · exact ⟨by simpa [hsame] using ht, hpos⟩
    · simp [hback] at ht

theorem framePhase_phase_isSome {s t : State} (hp : s.phase.isSome) (h : framePhase s = .next t) : t.phase.isSome := by
  obtain ⟨r, rfl, -⟩ | ⟨pos, unit, a, u, -, -, -, rfl, ⟨-, rfl⟩ | ⟨-, ⟨f, -, rfl⟩ | ⟨-, h⟩⟩⟩ := framePhase_cases h
  · exact hp
  · simpa using hp
  · simp
  · obtain ⟨-, hphase | ⟨hphase, -⟩⟩ := gapPhase_moves rfl h
    · simp [hphase]
    · simp [hphase]

/-- ENCODE neither takes the value of `PHASE` away nor gives it one. -/
theorem execEncode_phase_isSome {thr : Half} {tlm : Bool} {s t : State} (h : execEncode thr tlm s = .next t) :
    t.phase = s.phase ∨ s.phase.isSome ∧ t.phase.isSome := by
  obtain ⟨-, rfl⟩ | ⟨-, -, rfl⟩ | ⟨-, -, -, rfl⟩ | ⟨b, -, -, -, h⟩ := execEncode_cases h
  · exact .inl rfl
  · exact .inl rfl
  · exact .inl rfl
  obtain ⟨-, rfl⟩ | ⟨hp, h⟩ | ⟨hp, h⟩ := h
  · exact .inl rfl
  · exact .inr ⟨by simp [hp], framePhase_phase_isSome (by simp [hp]) h⟩
  · obtain ⟨-, hphase | ⟨hphase, -⟩⟩ := gapPhase_moves (s := s.writeFrame _) hp h
    · exact .inl (hphase.trans hp.symm)
    · exact .inr ⟨by simp [hp], by simp [hphase]⟩

theorem misbehaved_phase {d : Delegate} {a : Option Answer} {s t : State} (h : misbehaved d a s = .next t) :
    t.phase = s.phase := by
  rw [misbehaved_next h]
  simp

theorem execReset_phase {s t : State} (h : execReset s = .next t) : t.phase = s.phase ∨ t.phase = some .awaitingFrame := by
  obtain ⟨-, rfl⟩ | ⟨-, -, h⟩ | ⟨-, -, -, h⟩ | ⟨-, -, -, rfl⟩ := execReset_cases h
  · exact .inl rfl
  · exact .inl (misbehaved_phase h)
  · exact .inl (by simpa using misbehaved_phase h)
  · exact .inr rfl

theorem execDestroy_phase {s t : State} (h : execDestroy s = .next t) :
    t.phase = s.phase ∨ t.inst = .destroyed ∧ t.phase = none := by
  obtain ⟨-, rfl⟩ | ⟨-, -, h⟩ | ⟨-, -, -, h⟩ | ⟨-, -, -, rfl⟩ := execDestroy_cases h
  · exact .inl rfl
  · exact .inl (misbehaved_phase h)
  · exact .inl (by simpa using misbehaved_phase h)
  · exact .inr ⟨rfl, rfl⟩

theorem execConstruct_phase {bidir : Bool} {s t : State} (h : execConstruct bidir s = .next t) :
    t.phase = s.phase ∨ t.inst = .live ∧ t.phase = some .awaitingFrame := by
  obtain ⟨-, rfl⟩ | ⟨-, rfl⟩ | ⟨-, rfl⟩ | ⟨-, -, -, -, rfl⟩ := execConstruct_cases h
  · exact .inl rfl
  · exact .inl rfl
  · exact .inl rfl
  · exact .inr ⟨rfl, rfl⟩

theorem execConstructNull_phase {s t : State} (h : execConstructNull s = .next t) : t.phase = s.phase := by
  obtain ⟨-, rfl⟩ | ⟨-, rfl⟩ := execConstructNull_cases h
  · rfl
  · rfl

theorem execBuildFrame_phase {thr : Half} {tlm bidir : Bool} {s t : State} (h : execBuildFrame thr tlm bidir s = .next t) :
    t.phase = s.phase := by
  rw [execBuildFrame_eq] at h
  cases h
  rfl

/-- Settles O32: each phase of ENCODE moves `PHASE` by its own delegate's completion, `PHASE` has two values, and of the other commands
RESET, CONSTRUCT and DESTROY alone write it. -/
theorem phaseMovesOnlyOnCompletion : Obligations.PhaseMovesOnlyOnCompletion := by
  refine ⟨fun thr tlm bidir bit1 bit0 pos s t h hexec ht => encode_to_awaitingGap h rfl hexec ht,
    fun thr tlm bidir gap s t h hexec ht => ?_, fun thr tlm s t hexec hne => ?_, fun i s t hi hexec hne => ?_⟩
  · obtain ⟨-, -, -, hphase, -, hgap⟩ := id h
    rw [encode_of_awaitingGap h] at hexec
    obtain ⟨-, hsame | ⟨-, hcomplete⟩⟩ := gapPhase_moves (s := s.writeFrame _) hphase hexec
    · simp [hsame] at ht
    · exact hcomplete gap hgap
  · obtain ⟨hs, ht⟩ := (execEncode_phase_isSome hexec).resolve_left hne
    obtain ⟨p, hp⟩ := Option.isSome_iff_exists.1 hs
    obtain ⟨q, hq⟩ := Option.isSome_iff_exists.1 ht
    rw [hp, hq] at hne ⊢
    match p, q with
    | .awaitingFrame, .awaitingFrame | .awaitingGap, .awaitingGap => exact absurd rfl hne
    | .awaitingFrame, .awaitingGap => exact .inl ⟨rfl, rfl⟩
    | .awaitingGap, .awaitingFrame => exact .inr ⟨rfl, rfl⟩
  · cases i with
    | encode thr tlm => exact absurd rfl (hi thr tlm)
    | reset => exact .inl ⟨rfl, (execReset_phase hexec).resolve_left hne⟩
    | destroy => exact .inr (.inr ⟨rfl, (execDestroy_phase hexec).resolve_left hne⟩)
    | construct bidir => exact .inr (.inl ⟨⟨bidir, rfl⟩, (execConstruct_phase hexec).resolve_left hne⟩)
    | constructNull => exact absurd (execConstructNull_phase hexec) hne
    | buildFrame thr tlm bidir => exact absurd (execBuildFrame_phase hexec) hne

end Sys2Proof.Machine
end

section
/-! PROOFS. ENCODE with the reference collaborators (43_subencoders.md R202 to R210): one closed form of its next state, first for each
phase, then over the 17 symbols of a frame, whose first 16 are the SSE's and whose last is the GAP's. -/

namespace Sys2Proof.Machine

/-! ### The reference answers -/

/-- The two reference sub-encoders answer alike on their own units (43_subencoders.md R202, R207). -/
theorem gapReference_eq_sseReference : gapReference = sseReference := rfl

section
variable {exact : Bool} {F pos : Nat} {unit : List Symbol}

/-- Too little space for the rest of the unit. -/
theorem sseReference_of_lt (h : F < unit.length - pos) :
    sseReference exact F pos unit = ⟨F, ⟨false, true⟩, (unit.drop pos).take F, false⟩ := by
  have hcut : pos + F ≠ unit.length := by omega
  simp [sseReference, bufferFullRule, hcut, h, h.le]

/-- Space for the rest of the unit; an exact fill counts as full by the parameter alone (43_subencoders.md R204). -/
theorem sseReference_of_le (hpos : pos ≤ unit.length) (h : unit.length - pos ≤ F) :
    sseReference exact F pos unit =
      ⟨unit.length - pos, ⟨true, exact && decide (F = unit.length - pos)⟩, unit.drop pos, false⟩ := by
  have hfull : bufferFullRule exact F (unit.length - pos) = (exact && decide (F = unit.length - pos)) := by
    cases exact
    · simp [bufferFullRule, h]
    · simp [bufferFullRule, Nat.le_antisymm_iff, h]
  have htake : (unit.drop pos).take (unit.length - pos) = unit.drop pos := List.take_of_length_le (by simp)
  simp [sseReference, hfull, htake, Nat.min_eq_left h, Nat.add_sub_cancel' hpos]

theorem sseReference_contract (hpos : pos < unit.length) : Claim.Contract F pos unit (sseReference exact F pos unit) := by
  obtain h | h := Nat.lt_or_ge F (unit.length - pos)
  · rw [sseReference_of_lt h]
    exact ⟨⟨le_rfl, h.le⟩, ⟨by simp [h.le], rfl⟩, rfl, ⟨nofun, fun hend : pos + F = unit.length => by omega⟩, fun _ => rfl⟩
  · rw [sseReference_of_le hpos.le h]
    exact ⟨⟨h, le_rfl⟩, ⟨by simp, rfl⟩, (List.take_of_length_le (by simp)).symm,
      ⟨fun _ => Nat.add_sub_cancel' hpos.le, fun _ => rfl⟩, fun hnone : unit.length - pos = 0 => by omega⟩

end

/-! ### The closed form -/

/-- The state after an ENCODE that appended `ys` and returned with `PHASE = p`, `SSE_POS = pos` and the flags `f`, its frame `w`. -/
def emitted (w : Half) (ys : List Symbol) (p : Phase) (pos : Option (Fin 16)) (f : FlagSet) (s : State) : State :=
  State.writeResults codeOk (some (BitVec.ofNat 32 ys.length)) (some f.encode) none
    { s with frameReg := some w, phase := some p, ssePos := pos, gapPos := some 0, free := s.free - ys.length,
             out := s.out.appendAll s.cmd.chan ys }

section
variable (w : Half) (ys : List Symbol) (p : Phase) (pos : Option (Fin 16)) (f : FlagSet) (s : State)

@[simp] theorem emitted_inst : (emitted w ys p pos f s).inst = s.inst := rfl
@[simp] theorem emitted_cfg : (emitted w ys p pos f s).cfg = s.cfg := rfl
@[simp] theorem emitted_sym : (emitted w ys p pos f s).sym = s.sym := rfl
@[simp] theorem emitted_phase : (emitted w ys p pos f s).phase = some p := rfl
@[simp] theorem emitted_frameReg : (emitted w ys p pos f s).frameReg = some w := rfl
@[simp] theorem emitted_ssePos : (emitted w ys p pos f s).ssePos = pos := rfl
@[simp] theorem emitted_gapPos : (emitted w ys p pos f s).gapPos = some 0 := rfl
@[simp] theorem emitted_fault : (emitted w ys p pos f s).fault = s.fault := rfl
@[simp] theorem emitted_refused : (emitted w ys p pos f s).refused = s.refused := rfl
@[simp] theorem emitted_out : (emitted w ys p pos f s).out = s.out.appendAll s.cmd.chan ys := rfl
@[simp] theorem emitted_hostReads : (emitted w ys p pos f s).hostReads =
    { code := some codeOk, count := some (BitVec.ofNat 32 ys.length), flags := some f.encode, frame := none } :=
  State.hostReads_writeResults ..

end

theorem emitted_reportsComplete_iff {w : Half} {ys : List Symbol} {p : Phase} {pos : Option (Fin 16)} {f : FlagSet} {s : State} :
    Claim.reportsComplete (emitted w ys p pos f s) ↔ f.complete = true :=
  reportsComplete_writeResults_iff

/-- The buffer of the command's channel grows by the symbols emitted. -/
theorem read_emitted {s : State} (hwf : s.out.wf) (w : Half) (ys : List Symbol) (p : Phase) (pos : Option (Fin 16)) (f : FlagSet) :
    Memory.read s.cmd.chan (emitted w ys p pos f s).out = Memory.read s.cmd.chan s.out ++ ys := by
  rw [emitted_out, Memory.read_appendAll hwf, if_pos rfl]

/-! ### Each phase -/

section
variable {n : Nat} {p : Phase} {gap : Symbol} {s : State} (hpos : s.gapPos = some 0) (hgap : s.sym.gap = some gap)
  (href : s.cmd.gap = none)
include hpos hgap href

theorem gapPhase_reference :
    gapPhase n p s = .next (Claim.afterGap n p (sseReference s.par.exactFillFull s.free 0 [gap]) s) := by
  have hanswer : gapAnswer s 0 [gap] = sseReference s.par.exactFillFull s.free 0 [gap] := by
    rw [gapAnswer, href, Option.getD_none, gapReference_eq_sseReference]
  rw [← hanswer]
  exact gapPhase_of_contract hpos hgap (hanswer ▸ sseReference_contract Nat.one_pos)

theorem gapPhase_full (hfree : s.free = 0) : gapPhase n p s = .next (Claim.afterGap n p ⟨0, ⟨false, true⟩, [], false⟩ s) := by
  rw [gapPhase_reference hpos hgap href, hfree, sseReference_of_lt Nat.one_pos]
  rfl

theorem gapPhase_emits (hfree : 1 ≤ s.free) :
    gapPhase n p s =
      .next (Claim.afterGap n p ⟨1, ⟨true, s.par.exactFillFull && decide (s.free = 1)⟩, [gap], false⟩ s) := by
  rw [gapPhase_reference hpos hgap href, sseReference_of_le (Nat.zero_le _) hfree]
  rfl

end

section
variable {thr : Half} {tlm bidir : Bool} {gap : Symbol} {s : State} (h : Claim.AwaitsGap s bidir gap) (husual : s.cmd.usual)
include h husual

theorem encode_gap_full (hfree : s.free = 0) :
    exec (.encode thr tlm) s =
      .next (emitted (Claim.wire thr tlm bidir) [] .awaitingGap s.ssePos ⟨false, true⟩ s) := by
  obtain ⟨-, -, -, -, hpos, hgap⟩ := id h
  obtain ⟨-, -, href⟩ := husual
  rw [encode_of_awaitingGap h, gapPhase_full (s := s.writeFrame _) hpos hgap href hfree]
  rfl

theorem encode_gap_emits (hfree : 1 ≤ s.free) :
    exec (.encode thr tlm) s =
      .next (emitted (Claim.wire thr tlm bidir) [gap] .awaitingFrame s.ssePos
        ⟨true, s.par.exactFillFull && decide (s.free = 1)⟩ s) := by
  obtain ⟨-, -, -, -, hpos, hgap⟩ := id h
  obtain ⟨-, -, href⟩ := husual
  rw [encode_of_awaitingGap h, gapPhase_emits (s := s.writeFrame _) hpos hgap href hfree]
  rfl

end

section
variable {thr : Half} {tlm bidir : Bool} {pos : Fin 16} {a : Answer} {s : State}

/-- The return after the frame phase in the closed form. -/
theorem afterSse_writeResults (hpos : s.gapPos = some 0) (ha : a.symbols.length = a.n) (p : Phase) (f : FlagSet) :
    ((Claim.afterSse thr tlm bidir pos a s).setPhase p).writeResults codeOk (some (BitVec.ofNat 32 a.n)) (some f.encode) none =
      emitted (Claim.wire thr tlm bidir) a.symbols p (some (Fin.ofNat 16 (pos.val + a.n))) f s := by
  simp only [Claim.afterSse, State.appendAll_eq, emitted, ← hpos, ha]
  rfl

/-- The return after both phases in the closed form. -/
theorem afterGap_afterSse {g : Answer} (ha : a.symbols.length = a.n) (hg : g.symbols.length = g.n) (p : Phase) :
    Claim.afterGap a.n p g ((Claim.afterSse thr tlm bidir pos a s).setPhase p) =
      emitted (Claim.wire thr tlm bidir) (a.symbols ++ g.symbols) (if g.flags.complete then .awaitingFrame else p)
        (some (Fin.ofNat 16 (pos.val + a.n))) g.flags s := by
  simp only [Claim.afterGap, Claim.afterSse, State.appendAll_eq, emitted, Memory.appendAll_append, List.length_append, ha, hg,
    ← Nat.sub_sub]
  rfl

end

theorem sseAnswer_usual {s : State} (husual : s.cmd.usual) (pos : Nat) (unit : List Symbol) :
    sseAnswer s pos unit = sseReference s.par.exactFillFull s.free pos unit := by
  obtain ⟨-, href, -⟩ := husual
  rw [sseAnswer, href, Option.getD_none]

section
variable {thr : Half} {tlm bidir : Bool} {bit1 bit0 gap : Symbol} {pos : Fin 16} {s : State} {a : Answer}
  (h : Claim.AwaitsFrame s bidir bit1 bit0 pos) (hpos : s.gapPos = some 0) (husual : s.cmd.usual)
  (ha : sseReference s.par.exactFillFull s.free pos.val (Claim.bitSymbols (Claim.frame thr tlm bidir) bit1 bit0) = a)
include husual ha

theorem reference_meets_contract :
    a = sseAnswer s pos.val (Claim.bitSymbols (Claim.frame thr tlm bidir) bit1 bit0) ∧
      Claim.Contract s.free pos.val (Claim.bitSymbols (Claim.frame thr tlm bidir) bit1 bit0) a := by
  rw [sseAnswer_usual husual, ha]
  exact ⟨rfl, ha ▸ sseReference_contract (by simp)⟩

include h hpos

/-- The reference SSE stops the command. -/
theorem encode_reference_stop {f : FlagSet} (hstop : afterFrame s.par.neitherPolicy a.flags = .stop f) :
    exec (.encode thr tlm) s =
      .next (emitted (Claim.wire thr tlm bidir) a.symbols (phaseAfterFrame a.flags .awaitingFrame)
        (some (Fin.ofNat 16 (pos.val + a.n))) f s) := by
  obtain ⟨hanswer, hc⟩ := reference_meets_contract husual ha
  obtain ⟨-, ⟨hlength, -⟩, -⟩ := id hc
  rw [encode_of_stop h hanswer hc hstop, afterSse_writeResults hpos hlength]

/-- The reference SSE leaves `s.free - a.n` slots to the reference GAP. -/
theorem encode_reference_gapPhase (hgap : s.sym.gap = some gap) (hgo : afterFrame s.par.neitherPolicy a.flags = .gapPhase)
    {g : Answer} (hg : sseReference s.par.exactFillFull (s.free - a.n) 0 [gap] = g) :
    exec (.encode thr tlm) s =
      .next (emitted (Claim.wire thr tlm bidir) (a.symbols ++ g.symbols)
        (if g.flags.complete then .awaitingFrame else phaseAfterFrame a.flags .awaitingFrame)
        (some (Fin.ofNat 16 (pos.val + a.n))) g.flags s) := by
  obtain ⟨hanswer, hc⟩ := reference_meets_contract husual ha
  obtain ⟨-, ⟨hlength, -⟩, -⟩ := id hc
  obtain ⟨-, ⟨hlengthg, -⟩, -⟩ : Claim.Contract (s.free - a.n) 0 [gap] g := hg ▸ sseReference_contract Nat.one_pos
  obtain ⟨-, -, href⟩ := husual
  rw [encode_of_gapPhase h hanswer hc hgo, gapPhase_reference (gap := gap), State.setPhase_free, afterSse_free hc,
    ← afterGap_afterSse hlength hlengthg, ← hg]
  · simp [Claim.afterSse]
  · simpa [Claim.afterSse] using hpos
  · simpa [Claim.afterSse] using hgap
  · simpa [Claim.afterSse] using href

end

section
variable {thr : Half} {tlm bidir : Bool} {bit1 bit0 gap : Symbol} {pos : Fin 16} {s : State}
  (h : Claim.AwaitsFrame s bidir bit1 bit0 pos) (hpos : s.gapPos = some 0) (hgap : s.sym.gap = some gap) (husual : s.cmd.usual)
include h hpos husual

theorem encode_frame_cut (hfree : s.free < 16 - pos.val) :
    exec (.encode thr tlm) s =
      .next (emitted (Claim.wire thr tlm bidir)
        (((Claim.bitSymbols (Claim.frame thr tlm bidir) bit1 bit0).drop pos.val).take s.free) .awaitingFrame
        (some (Fin.ofNat 16 (pos.val + s.free))) ⟨false, true⟩ s) :=
  encode_reference_stop h hpos husual (sseReference_of_lt (by simpa using hfree)) rfl

include hgap

/-- On an exact fill of the frame the SSE may leave a full buffer unreported, and then the GAP reports it. -/
theorem encode_frame_exact (hfree : s.free = 16 - pos.val) :
    exec (.encode thr tlm) s =
      .next (emitted (Claim.wire thr tlm bidir) ((Claim.bitSymbols (Claim.frame thr tlm bidir) bit1 bit0).drop pos.val)
        .awaitingGap (some 0) ⟨false, true⟩ s) := by
  have ha := sseReference_of_le (exact := s.par.exactFillFull) (F := s.free) (pos := pos.val)
    (unit := Claim.bitSymbols (Claim.frame thr tlm bidir) bit1 bit0) (by simp) (by simp; omega)
  rw [bitSymbols_length, decide_eq_true hfree, Bool.and_true] at ha
  have hend : pos.val + (16 - pos.val) = 16 := by omega
  cases hexact : s.par.exactFillFull with
  | true =>
    rw [encode_reference_stop h hpos husual ha (f := ⟨false, true⟩) (by rw [hexact]; rfl), hend]
    rfl
  | false =>
    rw [encode_reference_gapPhase h hpos husual ha hgap (by rw [hexact]; rfl)
      (g := ⟨0, ⟨false, true⟩, [], false⟩) (by rw [hfree, Nat.sub_self]; exact sseReference_of_lt Nat.one_pos),
      List.append_nil, hend]
    rfl

theorem encode_frame_rest (hfree : 16 - pos.val < s.free) :
    exec (.encode thr tlm) s =
      .next (emitted (Claim.wire thr tlm bidir) ((Claim.bitSymbols (Claim.frame thr tlm bidir) bit1 bit0).drop pos.val ++ [gap])
        .awaitingFrame (some 0) ⟨true, s.par.exactFillFull && decide (s.free = 17 - pos.val)⟩ s) := by
  have ha := sseReference_of_le (exact := s.par.exactFillFull) (F := s.free) (pos := pos.val)
    (unit := Claim.bitSymbols (Claim.frame thr tlm bidir) bit1 bit0) (by simp) (by simpa using hfree.le)
  rw [bitSymbols_length, decide_eq_false hfree.ne', Bool.and_false] at ha
  have hend : pos.val + (16 - pos.val) = 16 := by omega
  have hfull : (s.free - (16 - pos.val) = 1) = (s.free = 17 - pos.val) := by simp only [eq_iff_iff]; omega
  rw [encode_reference_gapPhase h hpos husual ha hgap rfl
    (sseReference_of_le (Nat.zero_le _) (show 1 ≤ s.free - (16 - pos.val) by omega)), hend]
  simp only [List.length_singleton, Nat.sub_zero, hfull]
  rfl

end

theorem flagSetEncode_complete (b : Bool) : FlagSet.encode ⟨true, b⟩ = if b then 0b11#2 else 0b01#2 := by
  cases b
  · rfl
  · rfl

/-- Settles O23: the three cases of the free space. -/
theorem encodeEmitsWhatFits : Obligations.EncodeEmitsWhatFits := by
  intro thr tlm bidir bit1 bit0 gap pos s h hpos hgap husual hwf bits old
  have hlength : bits.length = 16 - pos.val := by simp [bits]
  obtain hfree | hfree | hfree := Nat.lt_trichotomy s.free (16 - pos.val)
  · refine ⟨_, encode_frame_cut h hpos husual hfree, rfl, rfl, rfl, rfl, by simp [codeOk], fun _ => ?_, fun _ => by omega,
      fun _ => by omega⟩
    have htake : (bits.take s.free).length = s.free := by rw [List.length_take, hlength, Nat.min_eq_left hfree.le]
    refine ⟨?_, by simp [FlagSet.encode], rfl, ?_, read_emitted hwf ..⟩
    · rw [emitted_hostReads, htake]
    · simp only [emitted_ssePos, Option.map_some, Fin.val_ofNat]
      rw [Nat.mod_eq_of_lt (by omega)]
  · refine ⟨_, encode_frame_exact h hpos hgap husual hfree, rfl, rfl, rfl, rfl, by simp [codeOk], fun _ => by omega, fun _ => ?_,
      fun _ => by omega⟩
    refine ⟨?_, by simp [FlagSet.encode], rfl, rfl, read_emitted hwf ..⟩
    rw [emitted_hostReads, hlength]
  · refine ⟨_, encode_frame_rest h hpos hgap husual hfree, rfl, rfl, rfl, rfl, by simp [codeOk], fun _ => by omega,
      fun _ => by omega, fun _ => ?_⟩
    have hall : (bits ++ [gap]).length = 17 - pos.val := by simp [hlength]; omega
    refine ⟨?_, ?_, rfl, rfl, ?_⟩
    · rw [emitted_hostReads, hall]
    · simp only [emitted_hostReads, flagSetEncode_complete, Bool.and_eq_true, decide_eq_true_eq]
    · rw [List.append_assoc]
      exact read_emitted hwf ..

/-- Settles O24: the gap symbol is emitted as soon as there is a slot for it. -/
theorem encodeInGapPhaseEmitsTheGap : Obligations.EncodeInGapPhaseEmitsTheGap := by
  intro thr tlm bidir gap s h husual hwf
  obtain hfree | hfree := Nat.eq_zero_or_pos s.free
  · refine ⟨_, encode_gap_full h husual hfree, rfl, rfl, rfl, rfl, by simp [codeOk], rfl, fun _ => ?_, fun _ => by omega,
      fun _ => by omega, fun _ => by omega⟩
    exact ⟨by simp, by simp [FlagSet.encode], rfl, rfl⟩
  · refine ⟨_, encode_gap_emits h husual hfree, rfl, rfl, rfl, rfl, by simp [codeOk], rfl, fun _ => by omega, fun hone => ?_,
      fun htwo => ?_, fun _ => ⟨by simp, rfl, read_emitted hwf ..⟩⟩
    · simp only [emitted_hostReads, flagSetEncode_complete, hone, decide_true, Bool.and_true]
    · simp [flagSetEncode_complete, show s.free ≠ 1 by omega]

/-! ### The frame as 17 symbols -/

/-- What an ENCODE of a live block reads of its configuration: `CFG_BIDIR` and the symbols (10_state.md R25, R28). -/
structure FrameConfig where
  bidir : Bool
  bit1 : Symbol
  bit0 : Symbol
  gap : Symbol

/-- The symbols of one logical frame: the 16 payload symbols and the gap (41_orchestrator.md R144). -/
def frameSymbols (r : FrameConfig) (thr : Half) (tlm : Bool) : List Symbol :=
  Claim.bitSymbols (Claim.frame thr tlm r.bidir) r.bit1 r.bit0 ++ [r.gap]

@[simp] theorem frameSymbols_length (r : FrameConfig) (thr : Half) (tlm : Bool) : (frameSymbols r thr tlm).length = 17 := by
  simp [frameSymbols]

/-- The payload symbols left after `k`. -/
theorem drop_frameSymbols (r : FrameConfig) (thr : Half) (tlm : Bool) {k : Nat} (hk : k ≤ 16) :
    (frameSymbols r thr tlm).drop k = (Claim.bitSymbols (Claim.frame thr tlm r.bidir) r.bit1 r.bit0).drop k ++ [r.gap] :=
  List.drop_append_of_le_length (by simpa using hk)

/-- After 16 symbols the gap alone is left. -/
theorem drop_frameSymbols_end (r : FrameConfig) (thr : Half) (tlm : Bool) : (frameSymbols r thr tlm).drop 16 = [r.gap] :=
  List.drop_left' (by simp)

/-- `PHASE` with `k` symbols of the frame out. -/
def phaseAt (k : Nat) : Phase := if k < 16 then .awaitingFrame else .awaitingGap

/-- A live block of configuration `r` with `k` symbols of its frame out; `SSE_POS` is back at 0 after the sixteenth. -/
structure FrameAt (r : FrameConfig) (k : Nat) (s : State) : Prop where
  inst : s.inst = .live
  bidir : s.cfg.bidir = some r.bidir
  bit1 : s.sym.bit1 = some r.bit1
  bit0 : s.sym.bit0 = some r.bit0
  gap : s.sym.gap = some r.gap
  gapPos : s.gapPos = some 0
  phase : s.phase = some (phaseAt k)
  ssePos : s.ssePos = some (Fin.ofNat 16 k)
  le : k ≤ 16

/-- The configuration of a live block of the invariant (42_construction_timing.md R170, R177). -/
theorem InstanceFull.exists_frameConfig {s : State} (h : InstanceFull s) :
    ∃ r : FrameConfig, s.cfg.bidir = some r.bidir ∧ s.sym.bit1 = some r.bit1 ∧ s.sym.bit0 = some r.bit0 ∧
      s.sym.gap = some r.gap := by
  obtain ⟨⟨res, baud, delay, bidir, hcfg, -, -, -, hsym, -⟩, -⟩ := h
  exact ⟨⟨_, _, _, _⟩, congrArg CfgRegs.bidir hcfg, congrArg SymbolRegs.bit1 hsym, congrArg SymbolRegs.bit0 hsym,
    congrArg SymbolRegs.gap hsym⟩

/-- A live block without a fault stands at some symbol of a frame: the one at `SSE_POS`, or the gap (41_orchestrator.md R143). -/
theorem Inv.exists_frameAt {s : State} (h : Inv s) (hfault : s.fault = []) (hlive : s.inst = .live) : ∃ r k, FrameAt r k s := by
  obtain ⟨hlifecycle, hgapStart⟩ := h.1 hfault
  have hfull := (lifecycleInv_of_live hlive).1 hlifecycle
  obtain ⟨r, hbidir, hbit1, hbit0, hgap⟩ := hfull.exists_frameConfig
  obtain ⟨-, hphase, -, hsse, -, hgapPos⟩ := hfull
  obtain ⟨p, hp⟩ := Option.isSome_iff_exists.1 hphase
  obtain ⟨pos, hpos⟩ := Option.isSome_iff_exists.1 hsse
  obtain ⟨gapPos, hgapPos⟩ := Option.isSome_iff_exists.1 hgapPos
  rw [gapPos_eq_zero gapPos] at hgapPos
  cases p with
  | awaitingFrame =>
    refine ⟨r, pos, hlive, hbidir, hbit1, hbit0, hgap, hgapPos, ?_, ?_, pos.isLt.le⟩
    · rw [hp, phaseAt, if_pos pos.isLt]
    · rw [hpos, Fin.ofNat_val_eq_self]
  | awaitingGap => exact ⟨r, 16, hlive, hbidir, hbit1, hbit0, hgap, hgapPos, hp, hgapStart hp, le_rfl⟩

theorem FrameAt.awaitsFrame {r : FrameConfig} {k : Nat} {s : State} (h : FrameAt r k s) (hown : s.cmd.shared = false)
    (hk : k < 16) : Claim.AwaitsFrame s r.bidir r.bit1 r.bit0 ⟨k, hk⟩ := by
  refine ⟨h.inst, hown, h.bidir, ?_, ?_, h.bit1, h.bit0⟩
  · rw [h.phase, phaseAt, if_pos hk]
  · rw [h.ssePos, Option.some_inj]
    exact Fin.ext (Nat.mod_eq_of_lt hk)

theorem FrameAt.awaitsGap {r : FrameConfig} {s : State} (h : FrameAt r 16 s) (hown : s.cmd.shared = false) :
    Claim.AwaitsGap s r.bidir r.gap :=
  ⟨h.inst, hown, h.bidir, h.phase, h.gapPos, h.gap⟩

/-- An ENCODE that leaves the block with `j` symbols out. -/
theorem FrameAt.emitted {r : FrameConfig} {k j : Nat} {s : State} (h : FrameAt r k s) (hj : j ≤ 16) (w : Half) (ys : List Symbol)
    (f : FlagSet) : FrameAt r j (emitted w ys (phaseAt j) (some (Fin.ofNat 16 j)) f s) :=
  { h with gapPos := rfl, phase := rfl, ssePos := rfl, le := hj }

section
variable {r : FrameConfig} {k : Nat} {thr : Half} {tlm : Bool} {s : State} (h : FrameAt r k s) (husual : s.cmd.usual)
include h husual

/-- Less space than the frame still needs: the ENCODE emits as many symbols as fit and reports BufferFull. -/
theorem encode_cut (hfree : s.free < 17 - k) :
    exec (.encode thr tlm) s =
      .next (emitted (Claim.wire thr tlm r.bidir) (((frameSymbols r thr tlm).drop k).take s.free) (phaseAt (k + s.free))
        (some (Fin.ofNat 16 (k + s.free))) ⟨false, true⟩ s) := by
  obtain ⟨hown, -⟩ := id husual
  obtain hk | rfl := h.le.lt_or_eq
  case inr =>
    have hzero : s.free = 0 := by omega
    rw [encode_gap_full (h.awaitsGap hown) husual hzero, h.ssePos, hzero]
    rfl
  have hframe := h.awaitsFrame hown hk
  rw [drop_frameSymbols r thr tlm hk.le, List.take_append_of_le_length (by simp; omega)]
  obtain hlt | heq : s.free < 16 - k ∨ s.free = 16 - k := by omega
  · rw [encode_frame_cut hframe h.gapPos husual hlt, phaseAt, if_pos (by omega)]
  · have hend : k + s.free = 16 := by omega
    rw [encode_frame_exact hframe h.gapPos h.gap husual heq, hend, List.take_of_length_le (by simp; omega)]
    rfl

/-- Space for all that the frame still needs: the ENCODE emits it and reports Complete. -/
theorem encode_rest (hfree : 17 - k ≤ s.free) :
    exec (.encode thr tlm) s =
      .next (emitted (Claim.wire thr tlm r.bidir) ((frameSymbols r thr tlm).drop k) (phaseAt 0) (some (Fin.ofNat 16 0))
        ⟨true, s.par.exactFillFull && decide (s.free = 17 - k)⟩ s) := by
  obtain ⟨hown, -⟩ := id husual
  obtain hk | rfl := h.le.lt_or_eq
  · rw [encode_frame_rest (h.awaitsFrame hown hk) h.gapPos h.gap husual (show 16 - k < s.free by omega),
      drop_frameSymbols r thr tlm hk.le]
    rfl
  · rw [encode_gap_emits (h.awaitsGap hown) husual (by omega), h.ssePos, drop_frameSymbols_end]
    rfl

end

/-- Settles O30: a live block of the invariant stands at one of the 17 symbols, so at least one is left to emit. -/
theorem encodeMakesProgress : Obligations.EncodeMakesProgress := by
  intro thr tlm s hinv hunmarked hlive husual
  obtain ⟨hfault, hrefused⟩ := hunmarked
  obtain ⟨-, -, -, hwf⟩ := id hinv
  obtain ⟨r, k, h⟩ := hinv.exists_frameAt hfault hlive
  have hk := h.le
  obtain hfree | hfree := Nat.lt_or_ge s.free (17 - k)
  · refine ⟨_, encode_cut h husual hfree, ⟨hfault, hrefused⟩, fun hone => ?_, fun hnone => ?_⟩
    · rw [read_emitted hwf, List.length_append, List.length_take, List.length_drop, frameSymbols_length]
      omega
    · rw [hnone, Nat.add_zero, h.phase, h.ssePos]
      exact ⟨rfl, rfl, rfl, rfl, rfl⟩
  · refine ⟨_, encode_rest h husual hfree, ⟨hfault, hrefused⟩, fun hone => ?_, fun hnone => by omega⟩
    rw [read_emitted hwf, List.length_append, List.length_drop, frameSymbols_length]
    omega

end Sys2Proof.Machine
end

section
/-! PROOFS. Frames cut over several ENCODEs (41_orchestrator.md R144, R146): each ENCODE of a series moves the block along the 17 symbols
of the frame, and the one that has space for the rest completes it. -/

namespace Sys2Proof.Machine

/-! ### One ENCODE of a series -/

/-- The block has taken an ENCODE that the host issued. -/
theorem FrameAt.accept {r : FrameConfig} {k : Nat} {s : State} (h : FrameAt r k s) (c : Command) (rest : List Command) :
    FrameAt r k (s.accept c rest) := { h with }

/-- An ENCODE of a series that finds `f` free slots takes the block from `s` to `u`, where `k` symbols of the frame are out, and
appends `ys`. -/
structure SeriesStep (thr : Half) (tlm : Bool) (chan : Chan) (r : FrameConfig) (f : Nat) (s u : State) (ys : List Symbol)
    (k : Nat) : Prop where
  series : ∀ fs, encodeSeries thr tlm chan (f :: fs) s =
    (encodeSeries thr tlm chan fs u).map fun p => (ys.length + p.1, p.2)
  frameAt : FrameAt r k u
  fault : u.fault = []
  out : u.out = s.out.appendAll chan ys

section
variable {thr : Half} {tlm : Bool} {chan : Chan} {r : FrameConfig} {f k : Nat} {s : State}

/-- The series of one ENCODE. -/
theorem SeriesStep.single {u : State} {ys : List Symbol} (h : SeriesStep thr tlm chan r f s u ys k) :
    encodeSeries thr tlm chan [f] s = some (ys.length, u) := by
  rw [h.series]
  rfl

theorem encodeSeries_cons {u : State} {n : Word} (hfault : s.fault = [])
    (hexec : exec (.encode thr tlm) (s.accept (encodeCommand thr tlm chan f) []) = .next u) (hcount : u.hostReads.count = some n)
    (fs : List Nat) :
    encodeSeries thr tlm chan (f :: fs) s = (encodeSeries thr tlm chan fs u).map fun p => (n.toNat + p.1, p.2) := by
  have hstep : step { s with pending := [encodeCommand thr tlm chan f] } = .next u :=
    (step_of_decode_command (s := { s with pending := [encodeCommand thr tlm chan f] }) hfault rfl
      (decode_encode (.encode thr tlm))).trans hexec
  simp only [encodeSeries, hstep, hcount]
  cases encodeSeries thr tlm chan fs u <;> rfl

variable (hfault : s.fault = []) (h : FrameAt r k s)
include hfault h

theorem seriesStep_of_exec {w : Half} {ys : List Symbol} {j : Nat} {flags : FlagSet} (hys : ys.length ≤ 17) (hj : j ≤ 16)
    (hexec : exec (.encode thr tlm) (s.accept (encodeCommand thr tlm chan f) []) =
      .next (emitted w ys (phaseAt j) (some (Fin.ofNat 16 j)) flags (s.accept (encodeCommand thr tlm chan f) []))) :
    SeriesStep thr tlm chan r f s
      (emitted w ys (phaseAt j) (some (Fin.ofNat 16 j)) flags (s.accept (encodeCommand thr tlm chan f) [])) ys j where
  series fs := by
    rw [encodeSeries_cons hfault hexec (congrArg ResultRegs.count (emitted_hostReads ..)), BitVec.toNat_ofNat,
      Nat.mod_eq_of_lt (by omega)]
  frameAt := (h.accept _ _).emitted hj w ys flags
  fault := hfault
  out := rfl

/-- An ENCODE without space for the rest of the frame. -/
theorem exists_seriesStep_cut (hf : f < 17 - k) :
    ∃ u, SeriesStep thr tlm chan r f s u (((frameSymbols r thr tlm).drop k).take f) (k + f) ∧ ¬ Claim.reportsComplete u := by
  refine ⟨_, seriesStep_of_exec hfault h (by simp) (by omega) (encode_cut (h.accept _ _) ⟨rfl, rfl, rfl⟩ hf), ?_⟩
  rw [emitted_reportsComplete_iff]
  exact Bool.false_ne_true

/-- An ENCODE with space for the rest of the frame. -/
theorem exists_seriesStep_rest (hf : 17 - k ≤ f) :
    ∃ u, SeriesStep thr tlm chan r f s u ((frameSymbols r thr tlm).drop k) 0 ∧ Claim.reportsComplete u := by
  refine ⟨_, seriesStep_of_exec hfault h (by simp) (by omega) (encode_rest (h.accept _ _) ⟨rfl, rfl, rfl⟩ hf), ?_⟩
  rw [emitted_reportsComplete_iff]

end

/-! ### A series from any symbol of the frame -/

theorem length_take_drop_frameSymbols (r : FrameConfig) (thr : Half) (tlm : Bool) {f k : Nat} (hf : f ≤ 17 - k) :
    (((frameSymbols r thr tlm).drop k).take f).length = f := by
  rw [List.length_take, List.length_drop, frameSymbols_length, Nat.min_eq_left hf]

section
variable {thr : Half} {tlm : Bool} {chan : Chan} {r : FrameConfig}

/-- A series that ends with its first Complete emits what was left of the frame. -/
theorem encodeSeries_until_complete {fs : List Nat} {k m : Nat} {s t : State} (hfault : s.fault = []) (h : FrameAt r k s)
    (hne : fs ≠ []) (hseries : encodeSeries thr tlm chan fs s = some (m, t)) (hcomplete : Claim.reportsComplete t)
    (hfirst : ∀ j m' t', 0 < j → j < fs.length → encodeSeries thr tlm chan (fs.take j) s = some (m', t') →
      ¬ Claim.reportsComplete t') :
    m = 17 - k ∧ FrameAt r 0 t ∧ t.out = s.out.appendAll chan ((frameSymbols r thr tlm).drop k) := by
  induction fs generalizing k m s with
  | nil => exact absurd rfl hne
  | cons f fs ih =>
    obtain hf | hf := Nat.lt_or_ge f (17 - k)
    · obtain ⟨u, hstep, hnot⟩ := exists_seriesStep_cut (thr := thr) (tlm := tlm) (chan := chan) hfault h hf
      have hcons := hstep.series
      rw [length_take_drop_frameSymbols r thr tlm hf.le] at hcons
      rw [hcons] at hseries
      obtain ⟨⟨m', t'⟩, hrest, heq⟩ := Option.map_eq_some_iff.1 hseries
      obtain ⟨rfl, rfl⟩ : f + m' = m ∧ t' = t := by simpa using heq
      have hne' : fs ≠ [] := by
        rintro rfl
        obtain ⟨-, rfl⟩ : 0 = m' ∧ u = t' := by simpa [encodeSeries] using hrest
        exact hnot hcomplete
      obtain ⟨hm, hframe, hout⟩ := ih hstep.fault hstep.frameAt hne' hrest fun j n v hj hlt hv =>
        hfirst (j + 1) (f + n) v (Nat.succ_pos j) (Nat.succ_lt_succ hlt) (by rw [List.take_succ_cons, hcons, hv]; rfl)
      refine ⟨by omega, hframe, ?_⟩
      rw [hout, hstep.out, ← Memory.appendAll_append, ← List.drop_drop, List.take_append_drop]
    · obtain ⟨u, hstep, hdone⟩ := exists_seriesStep_rest (thr := thr) (tlm := tlm) (chan := chan) hfault h hf
      have hnil : fs = [] := by
        by_contra hcons
        exact hfirst 1 _ u Nat.one_pos (by simpa [List.length_pos_iff] using hcons) hstep.single hdone
      subst hnil
      obtain ⟨rfl, rfl⟩ : 17 - k = m ∧ u = t := by simpa [hstep.single] using hseries
      exact ⟨rfl, hstep.frameAt, hstep.out⟩

/-- With free space at every ENCODE each emits a symbol, so what is left of the frame bounds their number. -/
theorem exists_encodeSeries_complete {fs : List Nat} {k : Nat} {s : State} (hfault : s.fault = []) (h : FrameAt r k s)
    (hpos : ∀ f ∈ fs, 1 ≤ f) (hlength : 17 - k ≤ fs.length) :
    ∃ j t, 0 < j ∧ j ≤ 17 - k ∧ encodeSeries thr tlm chan (fs.take j) s = some (17 - k, t) ∧ Claim.reportsComplete t := by
  have hk := h.le
  induction fs generalizing k s with
  | nil => exact absurd (Nat.le_zero.1 hlength) (by omega)
  | cons f fs ih =>
    obtain hf | hf := Nat.lt_or_ge f (17 - k)
    · obtain ⟨u, hstep, -⟩ := exists_seriesStep_cut (thr := thr) (tlm := tlm) (chan := chan) hfault h hf
      have hone : 1 ≤ f := hpos f List.mem_cons_self
      rw [List.length_cons] at hlength
      obtain ⟨j, t, hj, hle, hrest, hdone⟩ := ih hstep.fault hstep.frameAt (fun g hg => hpos g (List.mem_cons_of_mem f hg))
        (by omega) hstep.frameAt.le
      refine ⟨j + 1, t, Nat.succ_pos j, by omega, ?_, hdone⟩
      rw [List.take_succ_cons, hstep.series, hrest, length_take_drop_frameSymbols r thr tlm hf.le, Option.map_some,
        show f + (17 - (k + f)) = 17 - k by omega]
    · obtain ⟨u, hstep, hdone⟩ := exists_seriesStep_rest (thr := thr) (tlm := tlm) (chan := chan) hfault h hf
      refine ⟨1, u, Nat.one_pos, by omega, ?_, hdone⟩
      simpa using hstep.single

end

/-! ### A whole frame -/

/-- A block at the start of a frame. -/
theorem Inv.exists_frameAt_zero {s : State} (h : Inv s) (hfault : s.fault = []) (hlive : s.inst = .live)
    (hphase : s.phase = some .awaitingFrame) (hpos : s.ssePos = some 0) : ∃ r, FrameAt r 0 s := by
  obtain ⟨r, k, hframe⟩ := h.exists_frameAt hfault hlive
  exact ⟨r, { hframe with phase := hphase, ssePos := hpos, le := Nat.zero_le _ }⟩

/-- Settles O56: both the series and the one ENCODE emit the 17 symbols of the frame from its start. -/
theorem splitFrameEqualsWholeFrame : Obligations.SplitFrameEqualsWholeFrame := by
  intro thr tlm chan fs F m s t hinv hfault hlive hphase hpos _ hF hne hseries hcomplete hfirst
  obtain ⟨r, h⟩ := hinv.exists_frameAt_zero hfault hlive hphase hpos
  obtain ⟨hm, ht, hout⟩ := encodeSeries_until_complete hfault h hne hseries hcomplete hfirst
  obtain ⟨u, hstep, -⟩ := exists_seriesStep_rest (thr := thr) (tlm := tlm) (chan := chan) hfault h hF
  have hwhole : encodeSeries thr tlm chan [F] s = some (17, u) := by simpa using hstep.single
  exact ⟨hm, ht.phase, ht.ssePos, u, hwhole, hstep.frameAt.phase, hstep.frameAt.ssePos, hout.trans hstep.out.symm⟩

/-- Settles O57: from the start of a frame 17 symbols are left. -/
theorem frameCompletesWithinSeventeen : Obligations.FrameCompletesWithinSeventeen := by
  intro thr tlm chan fs s hinv hfault hlive hphase hpos hfree hlength
  obtain ⟨r, h⟩ := hinv.exists_frameAt_zero hfault hlive hphase hpos
  exact exists_encodeSeries_complete hfault h hfree hlength

end Sys2Proof.Machine
end

section
/-! PROOFS. Construction (42_construction_timing.md): the admission check against the specification's formula, CONSTRUCT on each answer of
that check, and the derived timing. -/

namespace Sys2Proof.Machine

/-! ### The admission check -/

/-- The model's admission check fails exactly where the specification's formula finds a duration above `DUR_MAX` (R172 to R178). -/
theorem fitsDurations_deriveTiming_eq_false_iff (p : Params) (res baud delay : Nat) :
    fitsDurations p (deriveTiming res baud delay) = false ↔ Claim.TooLong p res baud delay := by
  simp only [fitsDurations_eq_false_iff, Claim.TooLong, lt_max_iff, or_assoc]
  exact Iff.rfl

/-- CONSTRUCT accepts the configuration in its operands (R171, R178). -/
def Admitted (s : State) : Prop :=
  s.cmd.res ≠ 0 ∧ s.cmd.baud ≠ 0 ∧ ¬ Claim.TooLong s.par s.cmd.res.toNat s.cmd.baud.toNat s.cmd.delay.toNat

theorem opRes_eq_zero_iff (s : State) : s.opRes = 0 ↔ s.cmd.res = 0 := BitVec.toNat_inj (y := 0)

theorem opBaud_eq_zero_iff (s : State) : s.opBaud = 0 ↔ s.cmd.baud = 0 := BitVec.toNat_inj (y := 0)

/-! ### The two forms of CONSTRUCT where no instance is live -/

section
variable {bidir : Bool} {s : State} (hinst : s.inst ≠ .live)
include hinst

/-- The model's two refusals of a configuration are one: nothing but `REFUSED` changes. -/
theorem exec_construct_of_not_admitted (h : ¬ Admitted s) :
    exec (.construct bidir) s = .next (Claim.refusedFor .configNotAdmitted s) := by
  change execConstruct bidir s = _
  rw [execConstruct, if_neg hinst]
  split
  · rfl
  next hnonzero =>
  rw [opRes_eq_zero_iff, opBaud_eq_zero_iff, not_or] at hnonzero
  obtain ⟨hres, hbaud⟩ := hnonzero
  have hlong : Claim.TooLong s.par s.cmd.res.toNat s.cmd.baud.toNat s.cmd.delay.toNat := by
    by_contra hshort
    exact h ⟨hres, hbaud, hshort⟩
  exact if_pos ((fitsDurations_deriveTiming_eq_false_iff ..).mpr hlong)

/-- An accepted configuration is installed unless one of the three allocations fails. -/
theorem exec_construct_of_admitted (h : Admitted s) :
    exec (.construct bidir) s =
      .next (if s.cmd.a1 = true ∧ s.cmd.a2 = true ∧ s.cmd.a3 = true then Claim.constructed bidir s
        else Claim.returnedCode 2#2 s) := by
  obtain ⟨hres, hbaud, hshort⟩ := h
  have hnonzero : ¬ (s.opRes = 0 ∨ s.opBaud = 0) := by
    rw [opRes_eq_zero_iff, opBaud_eq_zero_iff]
    exact not_or.mpr ⟨hres, hbaud⟩
  have hfits := mt (fitsDurations_deriveTiming_eq_false_iff ..).mp hshort
  change execConstruct bidir s = _
  rw [execConstruct, if_neg hinst, if_neg hnonzero]
  refine (if_neg hfits).trans ?_
  cases s.cmd.a1
  case false => rfl
  cases s.cmd.a2
  case false => rfl
  cases s.cmd.a3
  case false => rfl
  rfl

theorem exec_constructNull : exec .constructNull s = .next (Claim.returnedCode 1#2 s) := if_neg hinst

end

/-- Settles O40: an accepted configuration with no failed allocation. -/
theorem constructInstallsTheConfiguration : Obligations.ConstructInstallsTheConfiguration := by
  intro bidir s hinst hres hbaud hshort h₁ h₂ h₃
  rw [exec_construct_of_admitted hinst ⟨hres, hbaud, hshort⟩, if_pos ⟨h₁, h₂, h₃⟩]

/-- Settles O41: each of the three grounds contradicts one clause of acceptance. -/
theorem configurationNotAcceptedIsRefused : Obligations.ConfigurationNotAcceptedIsRefused := by
  intro bidir s hinst hground
  refine exec_construct_of_not_admitted hinst ?_
  rintro ⟨hres, hbaud, hshort⟩
  obtain hzero | hzero | hlong := hground
  · exact hres hzero
  · exact hbaud hzero
  · exact hshort hlong

/-- Settles O42: an accepted configuration with a failed allocation. -/
theorem allocationFailureIsOutOfMemory : Obligations.AllocationFailureIsOutOfMemory := by
  intro bidir s hinst hres hbaud hshort hfail
  have hnotall : ¬ (s.cmd.a1 = true ∧ s.cmd.a2 = true ∧ s.cmd.a3 = true) := by
    simpa only [not_and_or, Bool.not_eq_true] using hfail
  rw [exec_construct_of_admitted hinst ⟨hres, hbaud, hshort⟩, if_neg hnotall]

/-- Settles O43: with no live instance the null form has one outcome. -/
theorem missingConfigurationIsInvalidArgument : Obligations.MissingConfigurationIsInvalidArgument :=
  fun _ hinst => exec_constructNull hinst

/-! ### The derived timing -/

section
variable (period : Nat)

theorem t1hOf_le : t1hOf period ≤ period := by
  unfold t1hOf
  omega

theorem t0hOf_le_t1hOf : t0hOf period ≤ t1hOf period := Nat.div_le_div_left (by decide) (by decide)

/-- A floored product `p * n / d` is the floor of the exact product with the rational `n / d`. -/
theorem mul_div_eq_floor (n d : Nat) : ((period * n / d : Nat) : Int) = ⌊(n / d : ℚ) * period⌋ := by
  rw [div_mul_eq_mul_div, mul_comm (n : ℚ), ← Nat.cast_mul, Rat.floor_natCast_div_natCast, Int.natCast_ediv]

/-- `0.7485 = 1497 / 2000` (R182). -/
theorem t1hOf_eq_floor : (t1hOf period : Int) = ⌊(7485 / 10000 : ℚ) * period⌋ := by
  rw [t1hOf, mul_div_eq_floor]
  norm_num

/-- `0.37425 = 1497 / 4000` (R182). -/
theorem t0hOf_eq_floor : (t0hOf period : Int) = ⌊(37425 / 100000 : ℚ) * period⌋ := by
  rw [t0hOf, mul_div_eq_floor]
  norm_num

end

theorem two_mul_gapHalfOf_le (gapTicks : Nat) : 2 * gapHalfOf gapTicks ≤ gapTicks := Nat.mul_div_le gapTicks 2

/-- Halving loses at most one tick (R173). -/
theorem le_two_mul_gapHalfOf_add_one (gapTicks : Nat) : gapTicks ≤ 2 * gapHalfOf gapTicks + 1 := by
  unfold gapHalfOf
  omega

theorem gapHalf_le_durMax_of_fitsDurations {p : Params} {t : Timing} (h : fitsDurations p t = true) : t.gapHalf ≤ durMax p := by
  by_contra hlong
  have hfails := (fitsDurations_eq_false_iff p t).mpr (.inr (.inr (.inr (.inr (not_le.mp hlong)))))
  exact Bool.false_ne_true (hfails.symm.trans h)

/-- Settles O45: the low times are what the high times leave of the period. -/
theorem timingIdentities : Obligations.TimingIdentities := by
  intro res baud delay
  have hle := t1hOf_le (periodOf res baud)
  have hle₀ := (t0hOf_le_t1hOf (periodOf res baud)).trans hle
  exact ⟨Nat.add_sub_cancel' hle, Nat.add_sub_cancel' hle₀, t0hOf_le_t1hOf _, t1hOf_eq_floor _, t0hOf_eq_floor _,
    two_mul_gapHalfOf_le _, le_two_mul_gapHalfOf_add_one _⟩

/-- Settles O46: half of the gap is below `2 ^ 31`, and the gap is at most twice its half and one tick. -/
theorem gapWrapIsNeverAccepted : Obligations.GapWrapIsNeverAccepted := by
  intro p res baud delay hbits hfits
  have hhalf : (deriveTiming res baud delay).gapHalf ≤ 2 ^ p.durBits - 1 := gapHalf_le_durMax_of_fitsDurations hfits
  have hgap : (deriveTiming res baud delay).gapTicks ≤ 2 * (deriveTiming res baud delay).gapHalf + 1 :=
    le_two_mul_gapHalfOf_add_one _
  have hpow : 2 ^ p.durBits ≤ 2 ^ 31 := Nat.pow_le_pow_right Nat.two_pos hbits
  omega

end Sys2Proof.Machine
end

section
/-! PROOFS. The sub-encoders (43_subencoders.md): the order of the unit's bits (R203), the flags of the reference answers (R204, R208),
the delegate contract (R201, R212), and the fault that records an answer which breaks it (60_exceptions.md R234). -/

namespace Sys2Proof.Machine

/-! ### The unit's bits -/

/-- Settles O18: the first equation is how the model reads a bit, the second undoes the byte swap. -/
theorem unitBitsAreFrameBits : Obligations.UnitBitsAreFrameBits :=
  fun f _ hk => ⟨rfl, fbBit_swapBytes f hk⟩

/-! ### The reference answers -/

theorem sseReference_bufferFull (exact : Bool) (F pos : Nat) (unit : List Symbol) :
    (sseReference exact F pos unit).flags.bufferFull = bufferFullRule exact F (unit.length - pos) := rfl

/-- Settles O20: the space is short of the rest of the unit, fills it exactly, or exceeds it. -/
theorem referenceAnswersReportAFlag : Obligations.ReferenceAnswersReportAFlag := by
  intro exact F pos unit a hpos ha
  obtain rfl : a = sseReference exact F pos unit := ha.elim id (gapReference_eq_sseReference ▸ ·)
  have hrule := sseReference_bufferFull exact F pos unit
  obtain hlt | heq | hgt := Nat.lt_trichotomy F (unit.length - pos)
  · rw [sseReference_of_lt hlt] at hrule ⊢
    exact ⟨.inr rfl, hrule, fun hle => absurd hlt hle.not_gt, fun _ => ⟨rfl, rfl⟩, fun heq => absurd heq hlt.ne⟩
  · have hexact : (exact && decide (F = unit.length - pos)) = exact := by rw [decide_eq_true heq, Bool.and_true]
    rw [sseReference_of_le hpos.le heq.ge] at hrule ⊢
    exact ⟨.inl rfl, hrule, fun _ => rfl, fun hlt => absurd heq hlt.ne, fun _ => ⟨rfl, hexact⟩⟩
  · rw [sseReference_of_le hpos.le hgt.le] at hrule ⊢
    exact ⟨.inl rfl, hrule, fun _ => rfl, fun hlt => absurd hlt hgt.not_gt, fun heq => absurd heq hgt.ne'⟩

/-- Settles O21: the gap is a unit of one symbol, which no slot cuts, one fills exactly and more exceed. -/
theorem gapReferenceOutcomes : Obligations.GapReferenceOutcomes := by
  intro exact gap
  rw [gapReference_eq_sseReference]
  refine ⟨sseReference_of_lt Nat.one_pos, ?_, fun F hF => ?_⟩
  · rw [sseReference_of_le (F := 1) (unit := [gap]) (Nat.zero_le _) le_rfl]
    simp
  · have hmore : F ≠ 1 := by omega
    rw [sseReference_of_le (Nat.zero_le _) (show 1 ≤ F by omega)]
    simp [hmore]

/-! ### The contract -/

/-- Settles O22: the model's check is the contract, and the reference answers of both delegates meet it. -/
theorem referenceCollaboratorsMeetTheContract : Obligations.ReferenceCollaboratorsMeetTheContract := by
  refine ⟨contractMet_iff, fun exact F pos unit hpos => ?_⟩
  rw [gapReference_eq_sseReference]
  exact ⟨sseReference_contract hpos, sseReference_contract hpos⟩

/-- What a command that ends in a fault records (10_state.md R39). -/
theorem records_of_eq_addFault {r : Result} {f : Fault} {s : State} (h : r = .next (s.addFault f)) :
    ∃ t, r = .next t ∧ f ∈ t.fault ∧ t.ended = .faulted f :=
  ⟨_, h, State.mem_addFault.2 (.inl rfl), rfl⟩

/-- The rows of the frame phase that go on to the gap phase: `{Complete}`, and neither flag under FallThrough (41_orchestrator.md
R133, R134). -/
theorem afterFrame_eq_gapPhase {policy : NeitherPolicy} {f : FlagSet}
    (h : f = ⟨true, false⟩ ∨ f = ⟨false, false⟩ ∧ policy = .fallThrough) : afterFrame policy f = .gapPhase := by
  obtain rfl | ⟨rfl, rfl⟩ := h
  · rfl
  · rfl

section
variable (thr : Half) (tlm bidir : Bool) (pos : Fin 16) (a : Answer) (s : State)

@[simp] theorem afterSse_gapPos : (Claim.afterSse thr tlm bidir pos a s).gapPos = s.gapPos := by
  simp [Claim.afterSse]

@[simp] theorem afterSse_sym : (Claim.afterSse thr tlm bidir pos a s).sym = s.sym := by
  simp [Claim.afterSse]

@[simp] theorem afterSse_cmd : (Claim.afterSse thr tlm bidir pos a s).cmd = s.cmd := by
  simp [Claim.afterSse]

end

/-- Settles O27: each of the three delegate calls of ENCODE ends in the fault that records its broken answer. -/
theorem brokenContractIsRecorded : Obligations.BrokenContractIsRecorded := by
  refine ⟨?sse, ?gap, ?gapAfterSse⟩
  case sse =>
    intro thr tlm bidir bit1 bit0 pos s a h ha hbroken
    exact records_of_eq_addFault (encode_of_broken h ha hbroken)
  case gap =>
    rintro thr tlm bidir gap s g h rfl hbroken
    obtain ⟨-, -, -, -, hpos, hgap⟩ := id h
    exact records_of_eq_addFault
      ((encode_of_awaitingGap h).trans (gapPhase_of_broken (s := s.writeFrame _) hpos hgap hbroken))
  case gapAfterSse =>
    rintro thr tlm bidir bit1 bit0 gap pos s a g h hpos hgap ha hc hflags rfl hbroken
    have hgo := encode_of_gapPhase h ha hc (afterFrame_eq_gapPhase hflags)
    generalize phaseAfterFrame a.flags .awaitingFrame = p at hgo
    rw [← afterSse_free (thr := thr) (tlm := tlm) (bidir := bidir) hc] at hbroken
    have hfault := gapPhase_of_broken (n := a.n) (p := p)
      (s := (Claim.afterSse thr tlm bidir pos a s).setPhase p) (by simpa using hpos) (by simpa using hgap) hbroken
    rw [State.setPhase_cmd, afterSse_cmd] at hfault
    exact records_of_eq_addFault (hgo.trans hfault)

end Sys2Proof.Machine
end

section
/-! PROOFS. Faults and checks (60_exceptions.md): the fault that records a misbehaving RESET or DESTROY (R234), the steps of a faulted,
an idle and a running block (R236, R247), and the order of CONSTRUCT's checks (R237). -/

namespace Sys2Proof.Machine

/-! ### A misbehaving reset or destroy -/

theorem quiet_eq_false_of_misbehaves {a : Answer} (h : a.symbols ≠ [] ∨ a.stray = true) : quiet (some a) = false := by
  rw [Bool.eq_false_iff, ne_eq, quiet_eq_true_iff]
  intro hquiet
  obtain ⟨hsymbols, hstray⟩ := hquiet a rfl
  obtain happends | hstrays := h
  · exact happends hsymbols
  · exact Bool.false_ne_true (hstray.symm.trans hstrays)

/-- The answer of a misbehaving delegate is what its fault records (R234). -/
theorem misbehaved_records (d : Delegate) (a : Answer) (s : State) :
    ∃ t, misbehaved d (some a) s = .next t ∧ .collaboratorContractViolation s.cmd.cw d a.n a.flags ∈ t.fault :=
  ⟨_, rfl, State.mem_addFault.2 (.inl rfl)⟩

section
variable {i : Instr} {s : State} (hi : i = .reset ∨ i = .destroy) (hlive : s.inst = .live)
include hi hlive

/-- RESET and DESTROY call the SSE first. -/
theorem exec_of_sse_misbehaves (hsse : quiet s.cmd.sse = false) : exec i s = misbehaved .sse s.cmd.sse s := by
  have hnot := Bool.eq_false_iff.1 hsse
  obtain rfl | rfl := hi
  · rw [exec, execReset, if_neg (not_not.2 hlive), callSseReset, if_neg hnot]
  · rw [exec, execDestroy, if_neg (not_not.2 hlive), callSseDestroy, if_neg hnot]

/-- When the GAP is called, a quiet SSE has changed its own registers alone. -/
theorem exec_of_gap_misbehaves (hsse : quiet s.cmd.sse = true) (hgap : quiet s.cmd.gap = false) :
    ∃ u, u.cmd = s.cmd ∧ exec i s = misbehaved .gap s.cmd.gap u := by
  have hnot := Bool.eq_false_iff.1 hgap
  obtain rfl | rfl := hi
  · refine ⟨s.setSsePos 0, rfl, ?_⟩
    rw [exec, execReset, if_neg (not_not.2 hlive), callSseReset, if_pos hsse, callGapReset, State.setSsePos_cmd, if_neg hnot]
  · refine ⟨s.dropSse, rfl, ?_⟩
    rw [exec, execDestroy, if_neg (not_not.2 hlive), callSseDestroy, if_pos hsse, callGapDestroy, State.dropSse_cmd, if_neg hnot]

end

/-- Settles O38: the first delegate that is not quiet ends the command, and the second is called with the same command word in the
port. -/
theorem misbehavingResetOrDestroyFaults : Obligations.MisbehavingResetOrDestroyFaults := by
  intro i s a hi hlive hmis
  have hloud := quiet_eq_false_of_misbehaves hmis
  refine ⟨fun hsse => ?_, fun hquiet hgap => ?_⟩
  · rw [exec_of_sse_misbehaves hi hlive (hsse ▸ hloud), hsse]
    exact misbehaved_records .sse a s
  · obtain ⟨u, hcmd, hexec⟩ := exec_of_gap_misbehaves hi hlive ((quiet_eq_true_iff _).2 hquiet) (hgap ▸ hloud)
    rw [hexec, hgap, ← hcmd]
    exact misbehaved_records .gap a u

/-! ### Every command ends in its step -/

/-- No command answers the outcome of a fault or of a refusal. -/
theorem exists_exec_eq_next (i : Instr) (s : State) : ∃ t, exec i s = .next t := by
  obtain ⟨t, ys, ht⟩ := exec_blind i s
  exact ⟨_, ht s.out⟩

theorem misbehaved_pending {d : Delegate} {a : Option Answer} {s t : State} (h : misbehaved d a s = .next t) :
    t.pending = s.pending := by
  rw [misbehaved_next h, State.addFault_pending, State.appendAll_pending]

/-- No command touches the list of issued commands. -/
theorem exec_pending {i : Instr} {s t : State} (h : exec i s = .next t) : t.pending = s.pending := by
  cases i with
  | encode thr tlm =>
    obtain ⟨u, hwork, hend⟩ := execEncode_ends h
    obtain ⟨res, fault, refused, ended, rfl⟩ := hend.exists_update
    exact hwork.pending
  | reset =>
    obtain ⟨-, rfl⟩ | ⟨-, -, h⟩ | ⟨-, -, -, h⟩ | ⟨-, -, -, rfl⟩ := execReset_cases h
    · rfl
    · exact misbehaved_pending h
    · exact (misbehaved_pending h).trans (State.setSsePos_pending _ _)
    · rfl
  | destroy =>
    obtain ⟨-, rfl⟩ | ⟨-, -, h⟩ | ⟨-, -, -, h⟩ | ⟨-, -, -, rfl⟩ := execDestroy_cases h
    · rfl
    · exact misbehaved_pending h
    · exact (misbehaved_pending h).trans (State.dropSse_pending _)
    · rfl
  | construct bidir =>
    obtain ⟨-, -, -, -, -, hpending⟩ := execConstruct_storesNothing h
    exact hpending
  | constructNull =>
    obtain ⟨-, -, -, -, -, hpending⟩ := execConstructNull_storesNothing h
    exact hpending
  | buildFrame thr tlm bidir =>
    obtain ⟨-, -, -, -, -, hpending⟩ := execBuildFrame_storesNothing h
    exact hpending

theorem step_of_fault {s : State} {f : Fault} {fs : List Fault} (h : s.fault = f :: fs) : step s = .fault f := by
  simp only [step, h]

theorem step_of_idle {s : State} (hfault : s.fault = []) (hpending : s.pending = []) : step s = .next s := by
  simp only [step, hfault, hpending]

/-- An idle step takes no command, a refused word is taken off the list, and a command is taken off it and leaves the rest. -/
theorem exists_step_eq_next {s : State} (hfault : s.fault = []) : ∃ t, step s = .next t ∧ t.pending = s.pending.tail := by
  cases hpending : s.pending with
  | nil => exact ⟨s, step_of_idle hfault hpending, hpending⟩
  | cons c rest =>
    cases hdecode : decode c.cw with
    | reservedEncoding => exact ⟨_, step_of_decode_reserved hfault hpending hdecode, rfl⟩
    | command i =>
      obtain ⟨t, ht⟩ := exists_exec_eq_next i (s.accept c rest)
      exact ⟨t, (step_of_decode_command hfault hpending hdecode).trans ht, exec_pending ht⟩

/-- Settles O8: the three cases of a step, of which the last holds because every command ends in a next state. -/
theorem faultedIdleAndRunningSteps : Obligations.FaultedIdleAndRunningSteps :=
  ⟨fun _ _ _ => step_of_fault, fun _ => step_of_idle, fun _ => exists_step_eq_next⟩

/-! ### The order of CONSTRUCT's checks -/

theorem addFault_eq_faultedFor {s : State} (h : s.fault = []) (f : Fault) : s.addFault f = Claim.faultedFor f s := by
  simp [State.addFault, Claim.faultedFor, h]

/-- `cfgp` picks the form of a word with `op = 0x3` that is not reserved (30_encoding.md R74, R79). -/
theorem decode_of_constructOp {cw : BitVec 32} (hop : opField cw = 3#4) (h : ¬ Claim.Reserved cw) :
    decode cw = .command (if cfgpField cw then .construct (bidirField cw) else .constructNull) := by
  obtain ⟨i, rfl⟩ := exists_encode_of_not_reserved h
  rw [decode_encode]
  cases i with
  | construct bidir => rw [encode, cfgpField_commandWord, bidirField_commandWord, if_pos rfl]
  | constructNull => rw [encode, cfgpField_commandWord, if_neg Bool.false_ne_true]
  | encode _ _ | reset | destroy | buildFrame _ _ _ =>
    rw [encode, opField_commandWord] at hop
    exact absurd hop (by decide)

/-- Both forms of CONSTRUCT check for a live instance first (R237). -/
theorem exec_constructForm_of_live {cfgp bidir : Bool} {s : State} (hfault : s.fault = []) (hlive : s.inst = .live) :
    exec (if cfgp then .construct bidir else .constructNull) s = .next (Claim.faultedFor (.alreadyLive s.cmd.cw) s) := by
  rw [← addFault_eq_faultedFor hfault]
  cases cfgp
  case false => exact if_pos hlive
  case true => exact if_pos hlive

/-- Settles O44: a word that is not reserved decodes to the form that `cfgp` picks, and each later check is one outcome of that form on
the state in which the block has taken the command. -/
theorem constructChecksInOrder : Obligations.ConstructChecksInOrder := by
  intro s c rest hfault hpending hop u
  have hreserved := (reservedWordsAreRefused s c rest hfault hpending).2
  have hstep (h : ¬ Claim.Reserved c.cw) := step_of_decode_command hfault hpending (decode_of_constructOp hop h)
  have hform {b : Bool} (h : ¬ Claim.Reserved c.cw) (hcfgp : c.cw.getLsbD 6 = b) :
      step s = exec (if b then .construct (c.cw.getLsbD 5) else .constructNull) u := hcfgp ▸ hstep h
  refine ⟨hreserved, fun hword hlive => ?live, fun hword hinst hcfgp => ?null, fun hword hinst hcfgp => ?configured⟩
  case live => exact (hstep hword).trans (exec_constructForm_of_live hfault hlive)
  case null => exact (hform hword hcfgp).trans (exec_constructNull hinst)
  case configured =>
    rw [hform hword hcfgp]
    have hrefused := configurationNotAcceptedIsRefused (c.cw.getLsbD 5) u hinst
    refine ⟨fun hzero => hrefused (hzero.imp_right .inl), fun hres hbaud => ?_⟩
    refine ⟨fun hlong => hrefused (.inr (.inr hlong)), fun hshort => ?_⟩
    exact ⟨allocationFailureIsOutOfMemory _ u hinst hres hbaud hshort,
      constructInstallsTheConfiguration _ u hinst hres hbaud hshort⟩

end Sys2Proof.Machine
end

section
/-! PROOFS. Reset and hazards (70_reset_and_hazards.md): what holds a live configuration in place (R267), the commands without an instance
(R268), zero durations (R269), RESET against a new construction (R263), and ENCODE with a buffer that is full (R265) or of a given size
(R273) and with an input that changes inside a frame (R264). -/

namespace Sys2Proof.Machine

/-! ### The configuration of a live block -/

/-- From `s` to `t` the configuration, timing and symbol registers are the same. -/
def KeepsConfiguration (s t : State) : Prop := t.cfg = s.cfg ∧ t.tim = s.tim ∧ t.sym = s.sym

theorem misbehaved_keepsConfiguration {d : Delegate} {a : Option Answer} {s t : State} (h : misbehaved d a s = .next t) :
    KeepsConfiguration s t := by
  rw [misbehaved_next h]
  simp [KeepsConfiguration]

theorem execReset_keepsConfiguration {s t : State} (h : execReset s = .next t) : KeepsConfiguration s t := by
  obtain ⟨-, rfl⟩ | ⟨-, -, h⟩ | ⟨-, -, -, h⟩ | ⟨-, -, -, rfl⟩ := execReset_cases h
  · exact ⟨rfl, rfl, rfl⟩
  · exact misbehaved_keepsConfiguration h
  · exact misbehaved_keepsConfiguration (s := s.setSsePos 0) h
  · exact ⟨rfl, rfl, rfl⟩

/-- A DESTROY that leaves the instance live is one that a misbehaving delegate stopped. -/
theorem execDestroy_keepsConfiguration {s t : State} (hlive : s.inst = .live) (h : execDestroy s = .next t) (ht : t.inst = .live) :
    KeepsConfiguration s t := by
  obtain ⟨hdead, -⟩ | ⟨-, -, h⟩ | ⟨-, -, -, h⟩ | ⟨-, -, -, rfl⟩ := execDestroy_cases h
  · exact absurd hlive hdead
  · exact misbehaved_keepsConfiguration h
  · exact misbehaved_keepsConfiguration (s := s.dropSse) h
  · cases ht

/-- Both forms of CONSTRUCT fault on a live block. -/
theorem execConstruct_of_live {bidir : Bool} {s : State} (hlive : s.inst = .live) :
    execConstruct bidir s = .next (s.addFault (.alreadyLive s.cmd.cw)) := if_pos hlive

theorem execConstructNull_of_live {s : State} (hlive : s.inst = .live) :
    execConstructNull s = .next (s.addFault (.alreadyLive s.cmd.cw)) := if_pos hlive

/-- Settles O48: ENCODE, RESET and BUILD_FRAME never write these registers, CONSTRUCT faults on a live block, and the DESTROY that
releases them ends the instance. -/
theorem configurationIsFixedWhileLive : Obligations.ConfigurationIsFixedWhileLive := by
  intro i s t hlive h ht
  cases i with
  | encode thr tlm =>
    obtain ⟨-, -, hcfg, htim, hsym, -⟩ := encodeFrame thr tlm s t h
    exact ⟨hcfg, htim, hsym⟩
  | reset => exact execReset_keepsConfiguration h
  | destroy => exact execDestroy_keepsConfiguration hlive h ht
  | construct bidir =>
    cases (execConstruct_of_live hlive).symm.trans h
    exact ⟨rfl, rfl, rfl⟩
  | constructNull =>
    cases (execConstructNull_of_live hlive).symm.trans h
    exact ⟨rfl, rfl, rfl⟩
  | buildFrame thr tlm bidir =>
    cases (execBuildFrame_eq thr tlm bidir s).symm.trans h
    exact ⟨rfl, rfl, rfl⟩

/-! ### Commands without an instance -/

/-- Settles O34: the check for a live instance is the first of the three commands. -/
theorem commandsWithoutInstanceFault : Obligations.CommandsWithoutInstanceFault := by
  intro i s hi hdead hfault
  rw [← addFault_eq_faultedFor hfault]
  obtain ⟨thr, tlm, rfl⟩ | rfl | rfl := hi
  · exact if_pos hdead
  · exact if_pos hdead
  · exact if_pos hdead

/-! ### Zero durations -/

theorem gapTicksOf_eq_zero {res delay : Nat} (h : res < 1000000 ∨ delay = 0) : gapTicksOf res delay = 0 :=
  Nat.mul_eq_zero.2 (h.imp_left Nat.div_eq_of_lt)

theorem t1hOf_eq_zero {period : Nat} (h : period ≤ 1) : t1hOf period = 0 := Nat.div_eq_of_lt (by omega)

theorem t0hOf_eq_zero {period : Nat} (h : period ≤ 2) : t0hOf period = 0 := Nat.div_eq_of_lt (by omega)

/-- Settles O47: each floor division is of a number below its divisor, and the two parts of a bit are no longer than its period. -/
theorem zeroDurationSymbols : Obligations.ZeroDurationSymbols := by
  intro res baud delay t
  have hgapHalf (h : res < 1000000 ∨ delay = 0) : t.gapHalf = 0 := congrArg gapHalfOf (gapTicksOf_eq_zero h)
  refine ⟨fun hdelay => ?gap, fun hres => hgapHalf (.inl hres), t0hOf_eq_zero, t1hOf_eq_zero, fun hbaud => ?bits⟩
  case gap => rw [symbolRegsOf, hgapHalf (.inr hdelay)]
  case bits =>
    have hperiod : periodOf res baud = 0 := Nat.div_eq_of_lt hbaud
    simp only [t, deriveTiming, hperiod]
    exact ⟨rfl, rfl, rfl, rfl⟩

/-! ### RESET and a new construction -/

/-- The configuration of a live block is accepted, and its other construction registers are what CONSTRUCT derives from it. -/
theorem InstanceFull.of_cfg {s : State} {res baud delay : Word} {bidir : Bool} (h : InstanceFull s)
    (hcfg : s.cfg = cfgOf res baud delay bidir) :
    (res ≠ 0 ∧ baud ≠ 0 ∧ ¬ Claim.TooLong s.par res.toNat baud.toNat delay.toNat) ∧
      s.tim = timingRegsOf (deriveTiming res.toNat baud.toNat delay.toNat) ∧
      s.sym = symbolRegsOf (deriveTiming res.toNat baud.toNat delay.toNat) ∧ s.sseLive = true ∧ s.gapLive = true := by
  obtain ⟨⟨res', baud', delay', bidir', hcfg', hres, hbaud, htim, hsym, hfits⟩, -, hsse, -, hgap, -⟩ := h
  obtain ⟨rfl, rfl, rfl, rfl⟩ : res' = res ∧ baud' = baud ∧ delay' = delay ∧ bidir' = bidir := by
    simpa [cfgOf] using hcfg'.symm.trans hcfg
  have hshort : ¬ Claim.TooLong s.par res'.toNat baud'.toNat delay'.toNat := by
    rw [← fitsDurations_deriveTiming_eq_false_iff, hfits]
    nofun
  exact ⟨⟨hres, hbaud, hshort⟩, htim, hsym, hsse, hgap⟩

/-- CONSTRUCT of an accepted configuration, every allocation ok. -/
theorem exec_construct_blank {d : State} {res baud delay : Word} (bidir : Bool) (hdead : d.inst ≠ .live) (hres : res ≠ 0)
    (hbaud : baud ≠ 0) (hshort : ¬ Claim.TooLong d.par res.toNat baud.toNat delay.toNat) :
    exec (.construct bidir) { d with cmd := { Command.blank with res := res, baud := baud, delay := delay } } =
      .next (Claim.constructed bidir { d with cmd := { Command.blank with res := res, baud := baud, delay := delay } }) :=
  constructInstallsTheConfiguration bidir _ hdead hres hbaud hshort rfl rfl rfl

theorem Command.usual.quiet {c : Command} (h : c.usual) : Claim.Quiet c.sse ∧ Claim.Quiet c.gap := by
  obtain ⟨-, hsse, hgap⟩ := h
  rw [hsse, hgap]
  exact ⟨nofun, nofun⟩

/-- Settles O39: before the next ENCODE the two blocks differ in `FRAME_REG` alone, which ENCODE writes before it reads it. -/
theorem encodeAfterResetIsLikeAfterConstruct : Obligations.EncodeAfterResetIsLikeAfterConstruct := by
  intro s r d u res baud delay bidir hinv hfault hlive hcfg husual hreset hdestroy hconstruct
  obtain ⟨hlifecycle, -⟩ := hinv.1 hfault
  obtain ⟨⟨hres, hbaud, hshort⟩, htim, hsym, hsse, hgap⟩ := ((lifecycleInv_of_live hlive).1 hlifecycle).of_cfg hcfg
  obtain ⟨hquiet, hquiet'⟩ := husual.quiet
  have hinstalled := exec_construct_blank (d := d) (res := res) (baud := baud) (delay := delay) bidir
  cases (resetRestoresTheInitialPhase s hlive hquiet hquiet').symm.trans hreset
  cases (destroyReleasesTheInstance s hlive hquiet hquiet').symm.trans hdestroy
  cases (hinstalled nofun hres hbaud hshort).symm.trans hconstruct
  refine ⟨rfl, fun thr tlm c hown => ?_⟩
  refine Eq.trans (congrArg _ ?_) (execEncode_frameReg_irrelevant rfl hown rfl s.frameReg)
  simp only [Claim.returnedCode, hlive, hcfg, htim, hsym, hsse, hgap]
  rfl

/-! ### A buffer that is never drained -/

section
variable {thr : Half} {tlm : Bool} {chan : Chan} {r : FrameConfig} {k : Nat} {s : State} (hfault : s.fault = []) (h : FrameAt r k s)
include hfault h

/-- An ENCODE without free space. -/
theorem exists_seriesStep_full :
    ∃ u, SeriesStep thr tlm chan r 0 s u [] k ∧ u.hostReads.flags = some 0b10#2 := by
  have hspace : 0 < 17 - k := Nat.sub_pos_of_lt (Nat.lt_succ_of_le h.le)
  exact ⟨_, seriesStep_of_exec hfault h (Nat.zero_le 17) h.le (encode_cut (h.accept _ _) ⟨rfl, rfl, rfl⟩ hspace), rfl⟩

/-- Any number of them: the flags are those of the last, which stay in the result registers. -/
theorem exists_encodeSeries_full (n : Nat) :
    ∃ t, encodeSeries thr tlm chan (List.replicate n 0) s = some (0, t) ∧ FrameAt r k t ∧ t.out = s.out ∧ t.fault = [] ∧
      (0 < n ∨ s.hostReads.flags = some 0b10#2 → t.hostReads.flags = some 0b10#2) := by
  induction n generalizing s with
  | zero => exact ⟨s, rfl, h, rfl, hfault, fun hflags => hflags.resolve_left (Nat.lt_irrefl 0)⟩
  | succ n ih =>
    obtain ⟨u, hstep, hflags⟩ := exists_seriesStep_full (thr := thr) (tlm := tlm) (chan := chan) hfault h
    obtain ⟨t, hseries, hframe, hout, hnone, hlast⟩ := ih hstep.fault hstep.frameAt
    refine ⟨t, ?_, hframe, hout.trans hstep.out, hnone, fun _ => hlast (.inr hflags)⟩
    rw [List.replicate_succ, hstep.series, hseries]
    rfl

end

/-- Settles O58: each ENCODE leaves the block at the symbol of the frame where it stood. -/
theorem fullBufferNeverProgresses : Obligations.FullBufferNeverProgresses := by
  intro thr tlm chan n s hinv hfault hlive
  obtain ⟨r, k, h⟩ := hinv.exists_frameAt hfault hlive
  obtain ⟨t, hseries, ht, hout, hnone, hflags⟩ := exists_encodeSeries_full (thr := thr) (tlm := tlm) (chan := chan) hfault h n
  exact ⟨t, hseries, ht.phase.trans h.phase.symm, ht.ssePos.trans h.ssePos.symm, hout, hnone, fun hn => hflags (.inl hn)⟩

/-! ### Buffer sizing -/

/-- One ENCODE emits what fits of the rest of the frame. -/
theorem exists_encodeSeries_single {thr : Half} {tlm : Bool} {chan : Chan} {r : FrameConfig} {k : Nat} {s : State}
    (hfault : s.fault = []) (h : FrameAt r k s) (f : Nat) :
    ∃ u, encodeSeries thr tlm chan [f] s = some (min f (17 - k), u) ∧ u.fault = [] ∧
      (f < 17 - k ∧ FrameAt r (k + f) u ∧ ¬ Claim.reportsComplete u ∨ 17 - k ≤ f ∧ Claim.reportsComplete u) := by
  obtain hf | hf := Nat.lt_or_ge f (17 - k)
  · obtain ⟨u, hstep, hnot⟩ := exists_seriesStep_cut (thr := thr) (tlm := tlm) (chan := chan) hfault h hf
    refine ⟨u, ?_, hstep.fault, .inl ⟨hf, hstep.frameAt, hnot⟩⟩
    rw [hstep.single, length_take_drop_frameSymbols r thr tlm hf.le, Nat.min_eq_left hf.le]
  · obtain ⟨u, hstep, hdone⟩ := exists_seriesStep_rest (thr := thr) (tlm := tlm) (chan := chan) hfault h hf
    refine ⟨u, ?_, hstep.fault, .inr ⟨hf, hdone⟩⟩
    rw [hstep.single, List.length_drop, frameSymbols_length, Nat.min_eq_right hf]

/-- Settles O59: a frame has 17 symbols, and each ENCODE emits what fits of the rest. -/
theorem bufferSizing : Obligations.BufferSizing := by
  intro thr tlm chan F s hinv hfault hlive hphase hpos
  obtain ⟨r, h⟩ := hinv.exists_frameAt_zero hfault hlive hphase hpos
  obtain ⟨t, hseries, hnone, hend⟩ := exists_encodeSeries_single (thr := thr) (tlm := tlm) (chan := chan) hfault h F
  refine ⟨_, t, hseries, ?_⟩
  obtain ⟨hcut, ht, hnot⟩ | ⟨hrest, hdone⟩ := hend
  · rw [Nat.zero_add] at ht
    refine ⟨fun _ => by omega, fun hexact => ⟨hnot, ?_⟩, fun hshort => ⟨hnot, ?_, fun G => ?_⟩⟩
    · rw [ht.phase, hexact]
      rfl
    · rw [ht.phase, phaseAt, if_pos hshort]
    · obtain ⟨u, hseries', -⟩ := exists_encodeSeries_single (thr := thr) (tlm := tlm) (chan := chan) hnone ht G
      exact ⟨_, u, hseries', by omega, by omega⟩
  · exact ⟨fun _ => ⟨Nat.min_eq_right hrest, hdone⟩, fun _ => by omega, fun _ => by omega⟩

/-! ### The mixed frame -/

/-- The block takes another command between two ENCODEs. -/
theorem FrameAt.withCommand {r : FrameConfig} {k : Nat} {s : State} (h : FrameAt r k s) (c : Command) :
    FrameAt r k { s with cmd := c, free := c.free } := { h with }

theorem emitted_out_wf {s : State} (hwf : s.out.wf) (w : Half) (ys : List Symbol) (p : Phase) (pos : Option (Fin 16)) (f : FlagSet) :
    (emitted w ys p pos f s).out.wf := by
  have hout : (emitted w ys p pos f s).out = (s.appendAll s.cmd.chan ys).out := (State.appendAll_out ..).symm
  rw [hout]
  exact State.appendAll_out_wf hwf _ _

/-- An ENCODE without space for the rest of the frame leaves the block further along it. -/
theorem exec_encode_cut {thr : Half} {tlm : Bool} {r : FrameConfig} {k : Nat} {s t : State} (h : FrameAt r k s) (husual : s.cmd.usual)
    (hwf : s.out.wf) (hfree : s.free < 17 - k) (hexec : exec (.encode thr tlm) s = .next t) :
    FrameAt r (k + s.free) t ∧ t.fault = s.fault ∧ t.out.wf ∧
      Memory.read s.cmd.chan t.out = Memory.read s.cmd.chan s.out ++ ((frameSymbols r thr tlm).drop k).take s.free := by
  cases (encode_cut h husual hfree).symm.trans hexec
  exact ⟨h.emitted (by omega) _ _ _, rfl, emitted_out_wf hwf .., read_emitted hwf ..⟩

/-- Settles O60: the block stands at a symbol of the frame, and each ENCODE takes the symbols from there of the frame that it has
built. -/
theorem changedInputMixesTwoFrames : Obligations.ChangedInputMixesTwoFrames := by
  intro thr thr' tlm tlm' bidir bit1 bit0 gap c s t hawaits hgapPos hgap husual hwf hfault hfree husual' hchan hfree' hexec
  obtain ⟨hlive, -, hbidir, hphase, hpos, hbit1, hbit0⟩ := hawaits
  have h : FrameAt ⟨bidir, bit1, bit0, gap⟩ 0 s := ⟨hlive, hbidir, hbit1, hbit0, hgap, hgapPos, hphase, hpos, Nat.zero_le 16⟩
  obtain ⟨ht, hnone, hwf', hhead⟩ := exec_encode_cut h husual hwf (by omega) hexec
  rw [Nat.zero_add] at ht
  refine ⟨_, encode_rest (ht.withCommand c) husual' hfree', hnone.trans hfault, ?_⟩
  have htail := read_emitted (s := { t with cmd := c, free := c.free }) hwf'
  rw [htail, drop_frameSymbols _ _ _ hfree.le, ← List.append_assoc]
  rw [← hchan, List.drop_zero, frameSymbols, List.take_append_of_le_length (by simpa using hfree.le)] at hhead
  rw [hhead]

end Sys2Proof.Machine
end
